-- ==== Sys2Proof/Word.lean ====
section
/-! DEFINITION. The word types of the block: bytes, 32-bit registers, 24-bit wire addresses, byte sequences
(R8, R13, R14, R31). Everything is unsigned; bit 0 is the least significant bit. -/

namespace Sys2Proof

/-- One byte of a frame, a buffer or a status register (R70: the byte is 8 bits in every address space). -/
abbrev Byte := BitVec 8

/-- A 32-bit unsigned register or host operand (R8, R31). -/
abbrev Word := BitVec 32

/-- The 24 address bits that a frame carries (R72). -/
abbrev Addr24 := BitVec 24

/-- A byte sequence; index 0 is first in time on the bus (R14). -/
abbrev Bytes := List Byte

end Sys2Proof
end

