-- ==== Sys2Proof/Config.lean ====
section
/-! DEFINITION. What an implementation fixes: the OPEN parameters of R12 (they stand in State, so that a statement
about every state is a statement about every choice of them), and the free values, opaque constants with no body
for everything the spec calls unspecified or leaves to the environment. -/

namespace Sys2Proof

/-- The identification table `ID_TABLE`: pairs of a 16-bit device id and a capacity in 256-byte pages (R183). -/
abbrev IdTable := List (BitVec 16 × Nat)

namespace IdTable

/-- Constraint 1 of R183: the device ids strictly ascend. -/
def idsAscend : IdTable → Bool
  | (i, _) :: (j, p) :: rest => decide (i.toNat < j.toNat) && idsAscend ((j, p) :: rest)
  | _ => true

/-- Constraint 2 of R183: the capacity doubles from each entry to the next. -/
def pagesDouble : IdTable → Bool
  | (_, p) :: (j, q) :: rest => decide (q = 2 * p) && pagesDouble ((j, q) :: rest)
  | _ => true

/-- Constraint 4 of R183: the smallest capacity is a multiple of 256 pages, the largest at most 2^23 pages. -/
def pagesInRange (t : IdTable) : Bool :=
  match t.head?, t.getLast? with
  | some (_, p), some (_, q) => decide (p % 256 = 0) && decide (q ≤ 2 ^ 23)
  | _, _ => false

/-- All that R183 asks of the table: nine entries and constraints 1 to 4. -/
def ok (t : IdTable) : Bool :=
  decide (t.length = 9) && idsAscend t && pagesDouble t
    && decide ((t.filter (fun e => decide (e.2 = 8192))).length = 1) && pagesInRange t

/-- The default instantiation of R183 (PRESUMED: general knowledge G7, the ids are not the document's; log 14). -/
def default : IdTable :=
  [(0x4011#16, 512), (0x4012#16, 1024), (0x4013#16, 2048), (0x4014#16, 4096), (0x4015#16, 8192),
   (0x4016#16, 16384), (0x4017#16, 32768), (0x4018#16, 65536), (0x4019#16, 131072)]

end IdTable

/-- The OPEN parameters of R12: fixed for one block, changed by no step. -/
structure Params where
  /-- `ID_TABLE` (R183). -/
  idTable : IdTable
  /-- `T_SETTLE`, the settle delay of `read_status`, in milliseconds (R161). -/
  tSettle : Nat
  /-- `T_GATE`, the delay before and after a gate opcode, in milliseconds (R161). -/
  tGate : Nat
  /-- `T_POLL`, the interval between polls, in milliseconds (R161). -/
  tPoll : Nat
  /-- `EXPOSE_INTERNAL`: whether the internal operations are accepted on the host port (R133, R261). -/
  exposeInternal : Bool
deriving DecidableEq, Repr

/-- The default of every OPEN parameter (92_eei_decisions.md, "OPEN parameters, collected"). DESIGN CHOICE, unsafe
where a claim rests on it: log 14. -/
def Params.default : Params :=
  { idTable := IdTable.default, tSettle := 1, tGate := 1, tPoll := 1, exposeInternal := true }

namespace Config

/-- FREE VALUE. Byte `i` of the answer an unknown chip gives in the transfer with free-value index `k`, where no
answer is listed for it (R90, U1, U6, U7; log 8). -/
opaque oracle : Nat → Nat → BitVec 8

/-- FREE VALUE. What an unspecified register of at most 32 bits holds: index of the event that left it unspecified,
then a slot for the register (R33, R40, R55; log 5, log 6, log 19). -/
opaque freeWord : Nat → Nat → BitVec 32

/-- FREE VALUE. What an unspecified byte sequence holds (R34 with R55; log 5). -/
opaque freeBytes : Nat → Nat → List (BitVec 8)

/-- FREE VALUE. Byte `i` of the frame buffer where R35 leaves its content unspecified: after the page-program transfer,
and after `Reset` (log 5, log 6). A constant of its own, so that nothing links it to what a chip answers. -/
opaque freeFrame : Nat → Nat → BitVec 8

/-- FREE VALUE. How many leading bytes of a frame the chip saw, when a `Reset` abandoned the transfer (R281, U13;
log 13). Any number at or above the frame's length stands for all of it. -/
opaque seenOfAbandoned : Nat → Nat

end Config
end Sys2Proof
end

