-- ==== Sys2Proof/Syntax.lean ====
section
/-! DEFINITION. The two instruction sets (R2): the twelve wire frames of R112 and the sixteen host operations of
R131, one constructor of `Instr` per row of spec/opcode_table.json. -/

namespace Sys2Proof

/-- The sixteen host operations (R131). -/
inductive HostOp where
  | mount | read | write | erase | eraseAll | checkParam | readStatus | waitUntilReady | writeEnable | writeDisable
  | volatileStatusWriteEnable | readJedec | pageProgram | sectorErase | blockErase64k | blockErase32k
deriving DecidableEq, Repr

/-- An instruction of the block. Wire frames carry the operands that stand in the frame; a host operation carries the
whole `Cmd` (R130): the two 32-bit operands and the data stream, also where the operation ignores them, because
acceptance latches them all (R38a). -/
inductive Instr where
  /-- `WREN` 0x06, write-enable (R113). -/
  | wren
  /-- `WRDI` 0x04, write-disable (R114). -/
  | wrdi
  /-- `VSRWE` 0x50, volatile-status-write-enable (R115). -/
  | vsrwe
  /-- `RDSR1` 0x05, status-reg-1-read (R116). -/
  | rdsr1
  /-- `RDSR2` 0x35, status-reg-2-read (R117). -/
  | rdsr2
  /-- `JEDECID` 0x9F, JEDEC-ID-read (R118). -/
  | jedecid
  /-- `READ` 0x03, data-read: flash address and total frame length, header included (R119). -/
  | dataRead (a : Addr24) (l : Word)
  /-- `PP` 0x02, page-program: flash address and payload (R120). -/
  | pp (a : Addr24) (d : Bytes)
  /-- `SE` 0x20, sector-erase: the sector-aligned address of the frame (R121). -/
  | se (a : Addr24)
  /-- `BE32` 0x52, 32K-block-erase: in the opcode map, never transmitted (R122). -/
  | be32 (a : Addr24)
  /-- `BE64` 0xD8, 64K-block-erase: the block-aligned address of the frame (R123). -/
  | be64 (a : Addr24)
  /-- `CE` 0xC7, chip-erase (R124). -/
  | ce
  /-- `mount`, op 0x0 (R184). -/
  | mount (addr len : Word) (wdata : Bytes)
  /-- `read`, op 0x1 (R205). -/
  | read (addr len : Word) (wdata : Bytes)
  /-- `write`, op 0x2 (R201). -/
  | write (addr len : Word) (wdata : Bytes)
  /-- `erase`, op 0x3 (R227). -/
  | erase (addr len : Word) (wdata : Bytes)
  /-- `erase_all`, op 0x4 (R229). -/
  | eraseAll (addr len : Word) (wdata : Bytes)
  /-- `check_param`, op 0x5 (R152). -/
  | checkParam (addr len : Word) (wdata : Bytes)
  /-- `read_status`, op 0x6 (R164). -/
  | readStatus (addr len : Word) (wdata : Bytes)
  /-- `wait_until_ready`, op 0x7 (R166). -/
  | waitUntilReady (addr len : Word) (wdata : Bytes)
  /-- `write_enable`, op 0x8 (R169). -/
  | writeEnable (addr len : Word) (wdata : Bytes)
  /-- `write_disable`, op 0x9 (R170). -/
  | writeDisable (addr len : Word) (wdata : Bytes)
  /-- `volatile_status_write_enable`, op 0xA (R171). -/
  | volatileStatusWriteEnable (addr len : Word) (wdata : Bytes)
  /-- `read_jedec`, op 0xB (R182). -/
  | readJedec (addr len : Word) (wdata : Bytes)
  /-- `page_program`, op 0xC (R194). -/
  | pageProgram (addr len : Word) (wdata : Bytes)
  /-- `sector_erase`, op 0xD (R217). -/
  | sectorErase (addr len : Word) (wdata : Bytes)
  /-- `block_erase_64k`, op 0xE (R220). -/
  | blockErase64k (addr len : Word) (wdata : Bytes)
  /-- `block_erase_32k`, op 0xF (R224). -/
  | blockErase32k (addr len : Word) (wdata : Bytes)
deriving DecidableEq, Repr

/-- The host operation `op` with its operands, as an instruction. -/
def HostOp.instr (op : HostOp) (addr len : Word) (wdata : Bytes) : Instr :=
  match op with
  | .mount => .mount addr len wdata
  | .read => .read addr len wdata
  | .write => .write addr len wdata
  | .erase => .erase addr len wdata
  | .eraseAll => .eraseAll addr len wdata
  | .checkParam => .checkParam addr len wdata
  | .readStatus => .readStatus addr len wdata
  | .waitUntilReady => .waitUntilReady addr len wdata
  | .writeEnable => .writeEnable addr len wdata
  | .writeDisable => .writeDisable addr len wdata
  | .volatileStatusWriteEnable => .volatileStatusWriteEnable addr len wdata
  | .readJedec => .readJedec addr len wdata
  | .pageProgram => .pageProgram addr len wdata
  | .sectorErase => .sectorErase addr len wdata
  | .blockErase64k => .blockErase64k addr len wdata
  | .blockErase32k => .blockErase32k addr len wdata

/-- Whether an operation is of tier `internal` (R131); the other five are `public`. -/
def HostOp.internal : HostOp → Bool
  | .mount | .read | .write | .erase | .eraseAll => false
  | .checkParam | .readStatus | .waitUntilReady | .writeEnable | .writeDisable | .volatileStatusWriteEnable
  | .readJedec | .pageProgram | .sectorErase | .blockErase64k | .blockErase32k => true

/-- Whether the host owes exactly `len` bytes of `wdata` with the operation (R132). -/
def HostOp.takesData : HostOp → Bool
  | .write | .pageProgram => true
  | .mount | .read | .erase | .eraseAll | .checkParam | .readStatus | .waitUntilReady | .writeEnable | .writeDisable
  | .volatileStatusWriteEnable | .readJedec | .sectorErase | .blockErase64k | .blockErase32k => false

end Sys2Proof
end

