-- ==== Sys2Proof/WellFormed.lean ====
section
/-! DEFINITION. Well-formed instructions: the operand values that the spec's encodings admit. -/

namespace Sys2Proof

/-- The address bits that a data-read frame of total length `l` really carries (R111, format `WAR`: `a[23:16]` if
`l >= 2`, `a[15:8]` if `l >= 3`, `a[7:0]` if `l >= 4`). -/
def sentMask (l : Word) : Addr24 :=
  if l.toNat ≤ 1 then 0x000000#24
  else if l.toNat = 2 then 0xFF0000#24
  else if l.toNat = 3 then 0xFFFF00#24
  else 0xFFFFFF#24

/-- `READ`: at least one byte, and an address with no bit set that the frame does not carry (R119). -/
def wfDataRead (a : Addr24) (l : Word) : Bool := decide (l ≠ 0#32) && decide (a &&& sentMask l = a)

/-- `PP`: the payload ends at or before the end of its page, so it is at most 256 bytes (R120, R192). -/
def wfPageProgram (a : Addr24) (d : Bytes) : Bool := decide (a.toNat % 256 + d.length ≤ 256)

/-- `SE`: the address of the frame is sector-aligned (R121). -/
def wfSectorErase (a : Addr24) : Bool := decide (a &&& 0xFFF000#24 = a)

/-- `BE64`: the address of the frame is 64 KB-aligned (R123). -/
def wfBlockErase64 (a : Addr24) : Bool := decide (a &&& 0xFF0000#24 = a)

/-- The contract of R132: exactly `len` bytes of data with an operation that takes data. -/
def wfCmdData (op : HostOp) (len : Word) (wdata : Bytes) : Bool := !op.takesData || decide (wdata.length = len.toNat)

/-- The check of one instruction. -/
def Instr.wf : Instr → Bool
  | .wren => true
  | .wrdi => true
  | .vsrwe => true
  | .rdsr1 => true
  | .rdsr2 => true
  | .jedecid => true
  | .dataRead a l => wfDataRead a l
  | .pp a d => wfPageProgram a d
  | .se a => wfSectorErase a
  | .be32 _ => true
  | .be64 a => wfBlockErase64 a
  | .ce => true
  | .mount _ l d => wfCmdData .mount l d
  | .read _ l d => wfCmdData .read l d
  | .write _ l d => wfCmdData .write l d
  | .erase _ l d => wfCmdData .erase l d
  | .eraseAll _ l d => wfCmdData .eraseAll l d
  | .checkParam _ l d => wfCmdData .checkParam l d
  | .readStatus _ l d => wfCmdData .readStatus l d
  | .waitUntilReady _ l d => wfCmdData .waitUntilReady l d
  | .writeEnable _ l d => wfCmdData .writeEnable l d
  | .writeDisable _ l d => wfCmdData .writeDisable l d
  | .volatileStatusWriteEnable _ l d => wfCmdData .volatileStatusWriteEnable l d
  | .readJedec _ l d => wfCmdData .readJedec l d
  | .pageProgram _ l d => wfCmdData .pageProgram l d
  | .sectorErase _ l d => wfCmdData .sectorErase l d
  | .blockErase64k _ l d => wfCmdData .blockErase64k l d
  | .blockErase32k _ l d => wfCmdData .blockErase32k l d

end Sys2Proof
end

