-- ==== Sys2Proof/Decode.lean ====
section
/-! DEFINITION. The two encodings (30_encoding.md): wire frames as byte sequences (R110, R111) and host commands as a
68-bit word with a byte stream (R130). Decoding is total and refuses by name; the encoder is written after it from the
same tables. -/

namespace Sys2Proof

/-- `FILL`, the request byte of every position that only clocks a response byte in (R12). -/
def fillByte : Byte := 0x00#8

/-! ### Opcodes of the wire command set (R112) -/

/-- write-enable. -/
def opcWren : Byte := 0x06#8
/-- write-disable. -/
def opcWrdi : Byte := 0x04#8
/-- volatile-status-write-enable. -/
def opcVsrwe : Byte := 0x50#8
/-- status-reg-1-read. -/
def opcRdsr1 : Byte := 0x05#8
/-- status-reg-2-read. -/
def opcRdsr2 : Byte := 0x35#8
/-- JEDEC-ID-read. -/
def opcJedecid : Byte := 0x9F#8
/-- data-read. -/
def opcDataRead : Byte := 0x03#8
/-- page-program. -/
def opcPp : Byte := 0x02#8
/-- sector-erase. -/
def opcSe : Byte := 0x20#8
/-- 32K-block-erase. -/
def opcBe32 : Byte := 0x52#8
/-- 64K-block-erase. -/
def opcBe64 : Byte := 0xD8#8
/-- chip-erase. -/
def opcCe : Byte := 0xC7#8

/-! ### Address bytes (R14, R74, R125) -/

/-- `A24(a)`: the three address bytes, most significant first (R14). -/
def addrBytes (a : Addr24) : Bytes := [a.extractLsb' 16 8, a.extractLsb' 8 8, a.extractLsb' 0 8]

/-- The address that three address bytes of a frame stand for (R74). -/
def joinAddr (b2 b1 b0 : Byte) : Addr24 := b2 ++ b1 ++ b0

/-- Forcing an address to sector alignment: bits 11 to 0 cleared (R77, R121). -/
def sectorMask (a : Addr24) : Addr24 := a &&& 0xFFF000#24

/-- Forcing an address to 64 KB alignment: bits 15 to 0 cleared (R77, R123). -/
def block64Mask (a : Addr24) : Addr24 := a &&& 0xFF0000#24

/-! ### Host operation codes (R131) -/

/-- The 4-bit code of a host operation. -/
def HostOp.code : HostOp → BitVec 4
  | .mount => 0x0#4
  | .read => 0x1#4
  | .write => 0x2#4
  | .erase => 0x3#4
  | .eraseAll => 0x4#4
  | .checkParam => 0x5#4
  | .readStatus => 0x6#4
  | .waitUntilReady => 0x7#4
  | .writeEnable => 0x8#4
  | .writeDisable => 0x9#4
  | .volatileStatusWriteEnable => 0xA#4
  | .readJedec => 0xB#4
  | .pageProgram => 0xC#4
  | .sectorErase => 0xD#4
  | .blockErase64k => 0xE#4
  | .blockErase32k => 0xF#4

/-- The operation a 4-bit code names; all sixteen are assigned (R133). -/
def opOfCode (c : BitVec 4) : HostOp :=
  if c = 0x0#4 then .mount
  else if c = 0x1#4 then .read
  else if c = 0x2#4 then .write
  else if c = 0x3#4 then .erase
  else if c = 0x4#4 then .eraseAll
  else if c = 0x5#4 then .checkParam
  else if c = 0x6#4 then .readStatus
  else if c = 0x7#4 then .waitUntilReady
  else if c = 0x8#4 then .writeEnable
  else if c = 0x9#4 then .writeDisable
  else if c = 0xA#4 then .volatileStatusWriteEnable
  else if c = 0xB#4 then .readJedec
  else if c = 0xC#4 then .pageProgram
  else if c = 0xD#4 then .sectorErase
  else if c = 0xE#4 then .blockErase64k
  else .blockErase32k

/-! ### Decoding -/

/-- Why a byte sequence is no frame of the command set. -/
inductive DecodeError where
  /-- A frame has at least its opcode byte (R9, R110). Safe: no frame of the block is empty. -/
  | emptyFrame
  /-- The first byte is none of the twelve opcodes (R127). Safe. -/
  | unknownOpcode (op : Byte)
  /-- The number of bytes is not one the opcode's format has (R111). Safe. -/
  | badLength (op : Byte)
  /-- A byte of a response position is not `FILL` (R111). Safe: the block sends no such frame (U10). -/
  | badFill (op : Byte)
  /-- The address of an erase frame has a bit set that its mask clears (R121, R123). Safe. -/
  | unaligned (op : Byte)
deriving DecidableEq, Repr

/-- Format `W1`: the opcode alone (R111). -/
def decodeW1 (op : Byte) (i : Instr) (rest : Bytes) : Except DecodeError Instr :=
  match rest with
  | [] => .ok i
  | _ :: _ => .error (.badLength op)

/-- Formats `W2` and `W4`: the opcode and `k` fill bytes (R111). -/
def decodeFill (op : Byte) (i : Instr) (k : Nat) (rest : Bytes) : Except DecodeError Instr :=
  if rest.length ≠ k then .error (.badLength op)
  else if rest.all (fun b => b == fillByte) then .ok i
  else .error (.badFill op)

/-- Format `WA`: the opcode and a three-byte address that the frame's mask leaves unchanged (R111). -/
def decodeWA (op : Byte) (mk : Addr24 → Instr) (mask : Addr24 → Addr24) (rest : Bytes) : Except DecodeError Instr :=
  match rest with
  | [b2, b1, b0] => if mask (joinAddr b2 b1 b0) = joinAddr b2 b1 b0 then .ok (mk (joinAddr b2 b1 b0)) else .error (.unaligned op)
  | _ => .error (.badLength op)

/-- Format `WAP`: opcode, address, up to 256 payload bytes (R111). -/
def decodeWAP (op : Byte) (rest : Bytes) : Except DecodeError Instr :=
  match rest with
  | b2 :: b1 :: b0 :: d => if d.length ≤ 256 then .ok (.pp (joinAddr b2 b1 b0) d) else .error (.badLength op)
  | _ => .error (.badLength op)

/-- Format `WAR`: opcode, as much of the address as the length allows, then fill bytes (R111, R119). Address bits of a
truncated header that were not sent decode as 0 (log 21). -/
def decodeWAR (op : Byte) (rest : Bytes) : Except DecodeError Instr :=
  match rest with
  | [] => .ok (.dataRead 0#24 1#32)
  | [b2] => .ok (.dataRead (joinAddr b2 0#8 0#8) 2#32)
  | [b2, b1] => .ok (.dataRead (joinAddr b2 b1 0#8) 3#32)
  | b2 :: b1 :: b0 :: f =>
    if 2 ^ 32 ≤ f.length + 4 then .error (.badLength op)
    else if f.all (fun b => b == fillByte) then .ok (.dataRead (joinAddr b2 b1 b0) (BitVec.ofNat 32 (f.length + 4)))
    else .error (.badFill op)

/-- The wire instruction of a frame, from byte 0 and the frame's length (R110 to R124). -/
def decodeFrame (b : Bytes) : Except DecodeError Instr :=
  match b with
  | [] => .error .emptyFrame
  | op :: rest =>
    if op = opcWren then decodeW1 op .wren rest
    else if op = opcWrdi then decodeW1 op .wrdi rest
    else if op = opcVsrwe then decodeW1 op .vsrwe rest
    else if op = opcRdsr1 then decodeFill op .rdsr1 1 rest
    else if op = opcRdsr2 then decodeFill op .rdsr2 1 rest
    else if op = opcJedecid then decodeFill op .jedecid 3 rest
    else if op = opcDataRead then decodeWAR op rest
    else if op = opcPp then decodeWAP op rest
    else if op = opcSe then decodeWA op .se sectorMask rest
    else if op = opcBe32 then decodeWA op .be32 id rest
    else if op = opcBe64 then decodeWA op .be64 block64Mask rest
    else if op = opcCe then decodeW1 op .ce rest
    else .error (.unknownOpcode op)

/-- The host operation of a command word `{op, addr, len}` and its data stream (R130). -/
def decodeCommand (w : BitVec 68) (wdata : Bytes) : Instr :=
  (opOfCode (w.extractLsb' 64 4)).instr (w.extractLsb' 32 32) (w.extractLsb' 0 32) wdata

/-- An instruction as it stands on one of the two ports: a frame on the transfer port or a command on the host port. -/
inductive Packet where
  | frame (b : Bytes)
  | command (w : BitVec 68) (wdata : Bytes)
deriving DecidableEq, Repr

/-- Decoding of either encoding. -/
def decode : Packet → Except DecodeError Instr
  | .frame b => decodeFrame b
  | .command w d => .ok (decodeCommand w d)

/-! ### Encoding -/

/-- The command word `{op[3:0], addr[31:0], len[31:0]}`, `op` most significant (R130). -/
def commandWord (op : HostOp) (addr len : Word) : BitVec 68 := op.code ++ addr ++ len

/-- A `Cmd` as a packet. -/
def encodeCommand (op : HostOp) (addr len : Word) (wdata : Bytes) : Packet := .command (commandWord op addr len) wdata

/-- The frame of a data read: the first `l` bytes of header and fill (R119). -/
def dataReadFrame (a : Addr24) (l : Word) : Bytes :=
  ([opcDataRead] ++ addrBytes a ++ List.replicate (max l.toNat 4 - 4) fillByte).take l.toNat

/-- The encoding of an instruction (R113 to R124, R130). -/
def encode : Instr → Packet
  | .wren => .frame [opcWren]
  | .wrdi => .frame [opcWrdi]
  | .vsrwe => .frame [opcVsrwe]
  | .rdsr1 => .frame [opcRdsr1, fillByte]
  | .rdsr2 => .frame [opcRdsr2, fillByte]
  | .jedecid => .frame [opcJedecid, fillByte, fillByte, fillByte]
  | .dataRead a l => .frame (dataReadFrame a l)
  | .pp a d => .frame (opcPp :: (addrBytes a ++ d))
  | .se a => .frame (opcSe :: addrBytes (sectorMask a))
  | .be32 a => .frame (opcBe32 :: addrBytes a)
  | .be64 a => .frame (opcBe64 :: addrBytes (block64Mask a))
  | .ce => .frame [opcCe]
  | .mount a l d => encodeCommand .mount a l d
  | .read a l d => encodeCommand .read a l d
  | .write a l d => encodeCommand .write a l d
  | .erase a l d => encodeCommand .erase a l d
  | .eraseAll a l d => encodeCommand .eraseAll a l d
  | .checkParam a l d => encodeCommand .checkParam a l d
  | .readStatus a l d => encodeCommand .readStatus a l d
  | .waitUntilReady a l d => encodeCommand .waitUntilReady a l d
  | .writeEnable a l d => encodeCommand .writeEnable a l d
  | .writeDisable a l d => encodeCommand .writeDisable a l d
  | .volatileStatusWriteEnable a l d => encodeCommand .volatileStatusWriteEnable a l d
  | .readJedec a l d => encodeCommand .readJedec a l d
  | .pageProgram a l d => encodeCommand .pageProgram a l d
  | .sectorErase a l d => encodeCommand .sectorErase a l d
  | .blockErase64k a l d => encodeCommand .blockErase64k a l d
  | .blockErase32k a l d => encodeCommand .blockErase32k a l d

/-- The bytes of a wire instruction's frame; a host operation has none. -/
def frameOf (i : Instr) : Bytes :=
  match encode i with
  | .frame b => b
  | .command _ _ => []

/-! ### The opcode table's words -/

/-- The first `k` bytes of a number, least significant byte first: the numbering of spec/opcode_table.json. -/
def bytesOfNat (k w : Nat) : Bytes := (List.range k).map (fun i => BitVec.ofNat 8 (w >>> (8 * i)))

/-- The fewest bytes of a whole instruction whose first byte is `op`: the format's length, with no payload, and for a
data read its whole header (R111). -/
def formatLength (op : Byte) : Nat :=
  if op = opcRdsr1 then 2
  else if op = opcRdsr2 then 2
  else if op = opcJedecid then 4
  else if op = opcDataRead then 4
  else if op = opcPp then 4
  else if op = opcSe then 4
  else if op = opcBe32 then 4
  else if op = opcBe64 then 4
  else 1

/-- A table word as it stands on its port (log 20). A word of more than 64 and at most 72 bits is a command word, whose
data stream, if the operation takes one, is `len` zero bytes; every other width is a frame, byte 0 in bits 7 to 0, with
the format's missing bytes zero. A command word with a bit above 67 set is none. -/
def tablePacket (nbits w : Nat) : Option Packet :=
  if 64 < nbits ∧ nbits ≤ 72 then
    if w < 2 ^ 68 then
      some (.command (BitVec.ofNat 68 w)
        (if (opOfCode (BitVec.ofNat 4 (w >>> 64))).takesData then List.replicate (w % 2 ^ 32) 0#8 else []))
    else none
  else some (.frame (bytesOfNat (max (nbits / 8) (formatLength (BitVec.ofNat 8 w))) w))

/-- The instruction that the decoder reads from a word of the opcode table. -/
def decodeTableWord (nbits w : Nat) : Option Instr :=
  match tablePacket nbits w with
  | some p =>
    match decode p with
    | .ok i => some i
    | .error _ => none
  | none => none

end Sys2Proof
end

