-- ==== Sys2Proof/Machine/State.lean ====
section
/-! DEFINITION. The state of the block and of what stands at its three ports, as plain data (R30, R55), the reasons a
step can stop, and the state after reset. -/

namespace Sys2Proof.Machine

/-! ### Results and events -/

/-- The causes of R241; code 7 is never produced and has no constructor. -/
inductive Cause where
  | none | paramRange | wrongManufacturer | unidentifiedDevice | timeout | unimplemented | refused
deriving DecidableEq, Repr

/-- The 3-bit cause code (R241). -/
def Cause.code : Cause → BitVec 3
  | .none => 0#3
  | .paramRange => 1#3
  | .wrongManufacturer => 2#3
  | .unidentifiedDevice => 3#3
  | .timeout => 4#3
  | .unimplemented => 5#3
  | .refused => 6#3

/-- The events of the trace (R11). -/
inductive Event where
  /-- A host command was accepted (R8, R38a). -/
  | cmd (op : BitVec 4) (addr len : Word) (wdata : Bytes)
  /-- The host wrote `POLL_LIMIT` (R44). -/
  | cfg (v : Word)
  /-- One bus transaction (R9). -/
  | xfer (req resp : Bytes)
  /-- One delay, in milliseconds (R10). -/
  | delay (ms : Nat)
  /-- The answer that ends a host operation (R240). -/
  | done (ok : Bool) (cause : Cause) (count : Word) (rdata : Bytes)
  /-- The reset input (R281). -/
  | reset
deriving DecidableEq, Repr

/-! ### The host port, the transfer and delay ports, the phase register -/

/-- A request of the host (R8, R262). -/
inductive HostReq where
  /-- `Cmd`: the 68-bit command word and the data stream (R130). -/
  | cmd (word : BitVec 68) (wdata : Bytes)
  /-- `Cfg(v)`: write `POLL_LIMIT` (R44). -/
  | cfg (v : Word)
  /-- Read a control register by its number (R40). -/
  | readReg (number : BitVec 4)
deriving DecidableEq, Repr

/-- A use of the transfer or delay port that has been requested and has not returned (R9, R10, R281). -/
inductive PortReq where
  | xfer (req : Bytes)
  | delay (ms : Nat)
deriving DecidableEq, Repr

/-- The three gate opcodes (R168). -/
inductive Gate where
  | writeEnable | writeDisable | volatileStatusWriteEnable
deriving DecidableEq, Repr

/-- The routine names of R37. `host op` is the top-level routine of a host operation, the others are the routines that
other routines call. `refusal` is the model's own: it stands in `PH` from the acceptance of a refused `Cmd` to its `Done`
(log 32). -/
inductive Routine where
  | host (op : HostOp)
  | readStatus
  | waitUntilReady
  | gate (g : Gate)
  | readJedec
  | pageProgram
  | sectorErase
  | blockErase64k
  | refusal
deriving DecidableEq, Repr

/-- An activation record of `PH`: a routine and the number of its next step (R36). -/
structure Record where
  routine : Routine
  step : Nat
deriving DecidableEq, Repr

/-! ### The attached chip -/

/-- A flash array: the bytes that differ from what an unlisted address reads as, addresses strictly rising. -/
abbrev Memory := List Host.Cell

/-- The reference device D0 (R98): its parameters and its state. -/
structure Device where
  /-- `CAP`, the capacity in bytes. -/
  cap : Nat
  /-- `IDH`, device-id-high. -/
  idh : Byte
  /-- `IDL`, device-id-low. -/
  idl : Byte
  /-- `K`, the busy answers after each accepted mutating frame. -/
  k : Nat
  /-- `MEM`. -/
  mem : Memory
  /-- `WEL`, the write-enable latch. -/
  wel : Bool
  /-- `BSY`, the busy answers still to come. -/
  bsy : Nat
deriving DecidableEq, Repr

/-- What answers the transfers (R90). -/
inductive Chip where
  /-- An unknown chip: the listed answers come first, every other answer is a free value (R90, U1; log 8). -/
  | unknown (answers : List Bytes)
  /-- The reference device D0 (R98). -/
  | d0 (d : Device)
deriving DecidableEq, Repr

/-! ### The state -/

/-- The whole state: the block's own (R30), the agents at its ports, and the model's own `trace` and `free`. -/
structure State where
  /-- `x[0]`, `ADDR` (R31). -/
  addr : Word
  /-- `x[1]`, `LEN` (R31). -/
  len : Word
  /-- `x[2]`, `CUR` (R31). -/
  cur : Word
  /-- `x[3]`, `OFF` (R31). -/
  off : Word
  /-- `x[4]`, `N` (R31). -/
  n : Word
  /-- `x[5]`, `P` (R31). -/
  p : Word
  /-- `x[6]`, `ATT` (R31). -/
  att : Word
  /-- `x[7]`, `CNT` (R31). -/
  cnt : Word
  /-- `OPR`, the operation latch (R33). -/
  opr : BitVec 4
  /-- `WBUF` (R34). -/
  wbuf : Bytes
  /-- `RBUF` (R34). -/
  rbuf : Bytes
  /-- `FB`, the frame buffer (R35). -/
  fb : Bytes
  /-- `PH`, the phase register, top record first; empty is IDLE (R36). -/
  ph : List Record
  /-- The outstanding use of the transfer or delay port (R9, R10, R281). -/
  port : Option PortReq
  /-- `VALID` (R41). -/
  valid : Bool
  /-- `MODEL` (R42). -/
  model : BitVec 4
  /-- `SIZE`, in 256-byte pages (R43). -/
  size : Word
  /-- `POLL_LIMIT` (R44). -/
  pollLimit : Word
  /-- `SR1` (R45). -/
  sr1 : Byte
  /-- `SR2` (R46). -/
  sr2 : Byte
  /-- `JEDEC`, `{J0, J1, J2, J3}` (R47). -/
  jedec : Word
  /-- `RESULT`, `{cause, ok}` (R48). -/
  result : BitVec 4
  /-- `COUNT` (R49). -/
  count : Word
  /-- The host's requests still to come, first one first (R8, R262). -/
  host : List HostReq
  /-- The host port's answer to the last register read: number and value (R40, R262). -/
  regOut : Option (BitVec 4 × Word)
  /-- The steps that pass before each coming `Reset` (R281; log 12). -/
  resets : List Nat
  /-- The chip behind the transfer port (R53, R90). -/
  chip : Chip
  /-- The OPEN parameters (R12). -/
  params : Params
  /-- The MODEL's own: index of the next free value. -/
  free : Nat
  /-- The MODEL's own: the events so far, oldest first (R11). -/
  trace : List Event
deriving DecidableEq, Repr

/-- Why the machine stops. Every constructor is for a case to which the spec gives no meaning. -/
inductive Fault where
  /-- A `Cmd` while an operation runs: the spec gives it no meaning (R262, U11: stuck). Raised by acceptance. Safe: the
  step function never takes one then; no claim follows from a stop. -/
  | hostNotIdle
  /-- A `Cmd` for `write` or `page_program` whose data is not exactly `len` bytes: outside the spec (R132, U17: stuck).
  Raised by acceptance. Safe. -/
  | malformedCommand
  /-- A byte sequence on the transfer port that is no frame of the command set (R127, U15: fault). Raised by the step
  that completes a transfer, and by a data-read frame of no bytes (R9). Safe: the block presents no such frame. -/
  | illegalFrame
  /-- A phase record with a step number that its routine does not have (R36, R37). Raised by the step of a routine.
  Safe: no run reaches one. -/
  | noSuchStep
deriving DecidableEq, Repr

/-- Why the machine refuses an instruction. -/
inductive Refusal where
  /-- The model gives the instruction no meaning. Raised by a refused arm of `exec` only; there is none. Safe. -/
  | notModelled (mnemonic : String)
deriving DecidableEq, Repr

/-- The state right after reset (R55, R280). `PH` empty, `VALID` 0, `MODEL` 0xF, `SIZE` 0 and `POLL_LIMIT` 0 are the
spec's; the captures, working registers and buffers are unspecified there and are named here (DESIGN CHOICE, unsafe: log
3, log 4). Nothing is on a port, the host has asked nothing yet and the chip is unknown (log 2, log 9); the parameters
are the spec's defaults (log 14). -/
def State.reset : State :=
  { addr := 0#32, len := 0#32, cur := 0#32, off := 0#32, n := 0#32, p := 0#32, att := 0#32, cnt := 0#32,
    opr := 0#4, wbuf := [], rbuf := [], fb := List.replicate 260 0#8, ph := [], port := none,
    valid := false, model := 0xF#4, size := 0#32, pollLimit := 0#32,
    sr1 := 0#8, sr2 := 0#8, jedec := 0#32, result := 0#4, count := 0#32,
    host := [], regOut := none, resets := [], chip := .unknown [], params := Params.default, free := 0, trace := [] }

end Sys2Proof.Machine
end

