-- ==== Sys2Proof/Machine/Device.lean ====
section
/-! DEFINITION. Flash memory, and the reference device D0 (20_memory.md section 8). -/

namespace Sys2Proof.Machine

/-! ### Flash memory

A list of (address, byte) pairs in one canonical form: addresses strictly rising and no byte listed that an unlisted
address reads as. -/

/-- What an unlisted address reads as: an erased byte (R98: initially every `MEM` byte is 0xFF). -/
def Memory.blank : Byte := 0xFF#8

/-- The byte at an address. -/
def Memory.read : Memory → Nat → Byte
  | [], _ => Memory.blank
  | (b, v) :: rest, a => if a = b then v else Memory.read rest a

/-- Put a byte at an address of a list with rising addresses, or take its entry out if it is the blank byte. -/
def Memory.write : Memory → Nat → Byte → Memory
  | [], a, v => if v = Memory.blank then [] else [(a, v)]
  | (b, w) :: rest, a, v =>
    if a < b then (if v = Memory.blank then (b, w) :: rest else (a, v) :: (b, w) :: rest)
    else if a = b then (if v = Memory.blank then rest else (a, v) :: rest)
    else (b, w) :: Memory.write rest a v

/-- Set the `n` bytes from `lo` to the erased value (R96, R102). -/
def Memory.eraseRange (m : Memory) (lo n : Nat) : Memory := m.filter (fun c => !(decide (lo ≤ c.1) && decide (c.1 < lo + n)))

/-- The canonical form: every listed address is at least `lo`, addresses rise strictly, no blank byte is listed. -/
def Memory.wfFrom : Nat → Memory → Bool
  | _, [] => true
  | lo, (a, v) :: rest => decide (lo ≤ a) && decide (v ≠ Memory.blank) && Memory.wfFrom (a + 1) rest

/-- The canonical form of a memory. -/
def Memory.wf (m : Memory) : Bool := Memory.wfFrom 0 m

/-! ### D0 -/

/-- `ART`, the artifact byte (R98). -/
def artifact : Byte := 0xFF#8

/-- The manufacturer id that D0 answers (R99). -/
def d0Manufacturer : Byte := 0xEF#8

/-- An answer of artifacts alone (R98). -/
def artifacts (n : Nat) : Bytes := List.replicate n artifact

/-- D0's address of a frame: `A = {a2, a1, a0} mod CAP` (R101 to R103). -/
def Device.flashAddr (d : Device) (a : Addr24) : Nat := a.toNat % d.cap

/-- D0's status register 1: `WEL` in bit 1, busy in bit 0 (R99). -/
def Device.status (d : Device) : Byte :=
  (if d.wel then 0x02#8 else 0x00#8) ||| (if d.bsy = 0 then 0x00#8 else 0x01#8)

/-- The address of payload byte `i` of a program frame at `a`: it stays in the page of `a` (R93, R101). -/
def pageWrap (a i : Nat) : Nat := (a - a % 256) + (a + i) % 256

/-- Programming the payload bytes from index `i` on, in order: each byte becomes the AND of old and new (R101). -/
def Memory.program (m : Memory) (a : Nat) : Nat → Bytes → Memory
  | _, [] => m
  | i, v :: rest => Memory.program (m.write (pageWrap a i) (m.read (pageWrap a i) &&& v)) a (i + 1) rest

/-- D0 after an accepted mutating frame that leaves the array `m`: `WEL <- 0`, `BSY <- K` (R101, R102). -/
def Device.mutated (d : Device) (m : Memory) : Device := { d with mem := m, wel := false, bsy := d.k }

/-- The data of a read: `MEM[(A + i) mod CAP]` for `n` bytes (R103). -/
def Device.data (d : Device) (a n : Nat) : Bytes := (List.range n).map (fun i => d.mem.read ((a + i) % d.cap))

/-- D0 on an addressed frame while ready: opcode, address, and the bytes after the header (R101 to R103). -/
def Device.addressed (d : Device) (op : Byte) (a : Addr24) (tail : Bytes) : Bytes × Device :=
  if op = opcDataRead then (artifacts 4 ++ d.data (d.flashAddr a) tail.length, d)
  else if op = opcPp ∧ d.wel = true ∧ tail ≠ [] ∧ tail.length ≤ 256 then
    (artifacts (4 + tail.length), d.mutated (d.mem.program (d.flashAddr a) 0 tail))
  else if op = opcSe ∧ d.wel = true ∧ tail = [] then
    (artifacts (4 + tail.length),
      d.mutated (d.mem.eraseRange (d.flashAddr a - d.flashAddr a % 4096) 4096))
  else if op = opcBe64 ∧ d.wel = true ∧ tail = [] then
    (artifacts (4 + tail.length),
      d.mutated (d.mem.eraseRange (d.flashAddr a - d.flashAddr a % 65536) 65536))
  else (artifacts (4 + tail.length), d)

/-- D0's answer to a frame and its state afterwards (R98 to R103). A frame that is not listed, has another length than
listed, or meets a busy device without being a status read, changes nothing and is answered with artifacts. -/
def Device.respond (d : Device) (req : Bytes) : Bytes × Device :=
  match req with
  | [] => ([], d)
  | op :: rest =>
    if op = opcRdsr1 ∧ rest.length = 1 then ([artifact, d.status], { d with bsy := d.bsy - 1 })
    else if op = opcRdsr2 ∧ rest.length = 1 then ([artifact, 0x00#8], d)
    else if d.bsy ≠ 0 then (artifacts req.length, d)
    else if op = opcJedecid ∧ rest.length = 3 then ([artifact, d0Manufacturer, d.idh, d.idl], d)
    else if op = opcWren ∧ rest = [] then (artifacts 1, { d with wel := true })
    else if op = opcWrdi ∧ rest = [] then (artifacts 1, { d with wel := false })
    else if op = opcCe ∧ rest = [] ∧ d.wel = true then (artifacts 1, d.mutated [])
    else
      match rest with
      | b2 :: b1 :: b0 :: tail => d.addressed op (joinAddr b2 b1 b0) tail
      | _ => (artifacts req.length, d)

/-- A device that R98 allows: a capacity that is a positive multiple of 65536, the array in canonical form and inside
the capacity. -/
def Device.wf (d : Device) : Bool :=
  decide (0 < d.cap) && decide (d.cap % 65536 = 0) && d.mem.wf && d.mem.all (fun c => decide (c.1 < d.cap))

/-- D0 before anything is sent to it (R98). -/
def Device.fresh (cap : Nat) (idh idl : Byte) (k : Nat) : Device :=
  { cap := cap, idh := idh, idl := idl, k := k, mem := [], wel := false, bsy := 0 }

end Sys2Proof.Machine
end

