-- ==== Sys2Proof/Machine/Flags.lean ====
section
/-! DEFINITION. The single bits that act as flags (R39): busy, valid, ok; and the packing of `RESULT` (R48). -/

namespace Sys2Proof.Machine

/-- `BUSY`: bit 0 of the captured status register 1 (R39, R45). No other bit is read by any rule. -/
def busy (sr1 : Byte) : Bool := sr1.getLsbD 0

/-- `RESULT` as `{cause[2:0], ok}` (R48). -/
def packResult (cause : Cause) (ok : Bool) : BitVec 4 := cause.code ++ BitVec.ofBool ok

/-- `ok`: bit 0 of `RESULT` (R39, R48). -/
def okBit (result : BitVec 4) : Bool := result.getLsbD 0

/-- The cause code: bits 3 to 1 of `RESULT` (R48). -/
def causeBits (result : BitVec 4) : BitVec 3 := result.extractLsb' 1 3

/-- `min(ATT + 1, 2^32 - 1)`: the attempt counter saturates (R165 S3). -/
def nextAttempt (att : Word) : Word := BitVec.ofNat 32 (min (att.toNat + 1) (2 ^ 32 - 1))

/-- The limit test of R165 S4: a limit is set and the attempts have reached it. -/
def attemptsSpent (limit att : Word) : Bool := decide (limit ≠ 0#32) && decide (limit.toNat ≤ att.toNat)

end Sys2Proof.Machine
end

