-- ==== Sys2Proof/Machine/Operands.lean ====
section
/-! DEFINITION. Operand assembly: how addresses, lengths and payloads are taken from the registers (R125, R126), the
page clip (R192), and the geometry of the flash space (R71). -/

namespace Sys2Proof.Machine

/-! ### Geometry (R12, R71) -/

/-- `PAGE`: bytes per page. -/
def pageBytes : Nat := 256
/-- `SECTOR`: bytes per sector. -/
def sectorBytes : Nat := 4096
/-- `BLOCK64`: bytes per 64 KB block. -/
def blockBytes : Nat := 65536

/-- The page index of an address (R71). -/
def pageIndex (a : Word) : Nat := a.toNat / pageBytes
/-- The sector index of an address (R71). -/
def sectorIndex (a : Word) : Nat := a.toNat / sectorBytes
/-- The 64 KB block index of an address (R71). -/
def blockIndex (a : Word) : Nat := a.toNat / blockBytes

/-- Capacity in bytes of a chip of `size` pages (R43). -/
def capacityBytes (size : Word) : Nat := size.toNat * pageBytes
/-- Capacity in sectors (R43). -/
def capacitySectors (size : Word) : Nat := size.toNat / 16
/-- Capacity in 64 KB blocks (R43). -/
def capacityBlocks (size : Word) : Nat := size.toNat / 256

/-! ### Addresses of frames -/

/-- The address a frame carries: bits 23 to 0 of the register, the rest dropped without report (R72, R125). -/
def wireAddr (a : Word) : Addr24 := a.setWidth 24

/-- The address of a sector-erase frame (R121). -/
def sectorAddr (a : Word) : Addr24 := sectorMask (wireAddr a)

/-- The address of a 64 KB block-erase frame (R123). -/
def blockAddr (a : Word) : Addr24 := block64Mask (wireAddr a)

/-! ### Lengths and payloads -/

/-- The distance from an address to the end of its page, 1 to 256 (R192). -/
def pageRoom (a : Word) : Nat := pageBytes - a.toNat % pageBytes

/-- The payload count of one page-program frame, `min(N, 256 - (CUR mod 256))` (R192). -/
def clip (n cur : Word) : Word := BitVec.ofNat 32 (min n.toNat (pageRoom cur))

/-- `WBUF[OFF..OFF+P]`, the payload of one page-program frame (R191 S4). -/
def payload (wbuf : Bytes) (off p : Word) : Bytes := (wbuf.drop off.toNat).take p.toNat

/-- `min(LEN - OFF, 256)`, the payload that `write` offers to one `page_program` (R201 S4). -/
def offered (len off : Word) : Word := BitVec.ofNat 32 (min (len.toNat - off.toNat) 256)

/-- Filling the frame buffer with a frame: the bytes beyond the frame keep what they held (R35, R191 S4). -/
def fillFrameBuffer (fb frame : Bytes) : Bytes := frame ++ fb.drop frame.length

/-! ### Response bytes (R126) -/

/-- Byte `i` of a response. -/
def respByte (resp : Bytes) (i : Nat) : Byte := resp.getD i 0#8

/-- `{resp[0], resp[1], resp[2], resp[3]}` of an identification response (R47, R118). -/
def jedecOf (resp : Bytes) : Word := respByte resp 0 ++ respByte resp 1 ++ respByte resp 2 ++ respByte resp 3

/-- The four bytes of `JEDEC`, `J0` first (R47): the response as `read_jedec` returns it (R182 S2). -/
def jedecBytes (j : Word) : Bytes := [j.extractLsb' 24 8, j.extractLsb' 16 8, j.extractLsb' 8 8, j.extractLsb' 0 8]

/-- `J1`, the manufacturer id (R47). -/
def manufacturer (j : Word) : Byte := j.extractLsb' 16 8

/-- `{J2, J3}`, the 16-bit device id (R126, R183). -/
def deviceId (j : Word) : BitVec 16 := j.extractLsb' 0 16

end Sys2Proof.Machine
end

