-- ==== Sys2Proof/Machine/Ops.lean ====
section
/-! DEFINITION. The named operations over the state: events and transfers, the moves of the phase register (R38),
ending an operation by `Done` or by `raise` (R247), the `Reset` event (R281), acceptance of a `Cmd` (R38a), `Cfg` and
register reads (R40, R44). -/

namespace Sys2Proof.Machine

/-- The three outcomes of a step of this machine. -/
abbrev Result := Host.Outcome State Fault Refusal

/-! ### Events and transfers -/

/-- Append an event to the trace (R11). -/
def State.emit (s : State) (e : Event) : State := { s with trace := s.trace ++ [e] }

/-- An answer of exactly `n` bytes: the listed bytes, and a free value for every byte not listed (R9, R90). -/
def fitAnswer (k n : Nat) (answer : Bytes) : Bytes := (List.range n).map (fun i => answer.getD i (Config.oracle k i))

/-- The response of the attached chip to a frame, in the transfer with free-value index `k` (R90). -/
def Chip.answer (c : Chip) (k : Nat) (req : Bytes) : Bytes :=
  match c with
  | .unknown answers => fitAnswer k req.length (answers.headD [])
  | .d0 d => (d.respond req).1

/-- The attached chip after a frame. -/
def Chip.after (c : Chip) (req : Bytes) : Chip :=
  match c with
  | .unknown answers => .unknown answers.tail
  | .d0 d => .d0 (d.respond req).2

/-- The response that `XFER(req)` gets in this state. -/
def State.response (s : State) (req : Bytes) : Bytes := s.chip.answer s.free req

/-- `XFER(req)`: one bus transaction, an event of the trace (R9, R16). -/
def State.exchange (s : State) (req : Bytes) : State :=
  { s with chip := s.chip.after req, free := s.free + 1, trace := s.trace ++ [.xfer req (s.response req)] }

/-! ### Moves of the phase register (R38) -/

/-- The top routine goes on at step `k`: the next step or a loop branch (R38b, R38e). -/
def State.at (s : State) (rt : Routine) (k : Nat) (rest : List Record) : State := { s with ph := ⟨rt, k⟩ :: rest }

/-- A call: the caller's record goes to step `k`, the callee starts at S1 (R38c). -/
def State.call (s : State) (callee rt : Routine) (k : Nat) (rest : List Record) : State :=
  { s with ph := ⟨callee, 1⟩ :: ⟨rt, k⟩ :: rest }

/-- A return: the top record is popped and the caller continues (R38d). -/
def State.ret (s : State) (rest : List Record) : State := { s with ph := rest }

/-- Present a frame on the transfer port (R9); the transfer is completed by a later step. -/
def State.request (s : State) (req : Bytes) : State := { s with port := some (.xfer req) }

/-- Ask the delay port for a delay (R10). -/
def State.requestDelay (s : State) (ms : Nat) : State := { s with port := some (.delay ms) }

/-! ### Ending an operation -/

/-- `OPR` outside an operation: a free value (R33, log 6). -/
def freeOpr (k : Nat) : BitVec 4 := (Config.freeWord k 8).setWidth 4

/-- `FB` outside a page-program transfer: 260 free bytes (R35, log 6). -/
def freeFrameBuffer (k : Nat) : Bytes := (List.range 260).map (Config.freeFrame k)

/-- `Done(1, None, CNT, rdata)`: success (R38f, R48, R49). -/
def State.finish (s : State) (rdata : Bytes) : State :=
  { s with ph := [], opr := freeOpr s.free, free := s.free + 1, result := packResult .none true, count := s.cnt,
           trace := s.trace ++ [.done true .none s.cnt rdata] }

/-- `raise cause`: what takes the place of an exception entry (R247). From any depth: nothing more goes to a port, `PH`
is emptied, `RESULT` and `COUNT` are written, `Done(0, cause, CNT, [])` is emitted. There is no handler and nothing to
return to (R248): the next `Cmd` starts from IDLE. -/
def State.raise (s : State) (cause : Cause) : State :=
  { s with ph := [], port := none, opr := freeOpr s.free, free := s.free + 1, result := packResult cause false,
           count := s.cnt, trace := s.trace ++ [.done false cause s.cnt []] }

/-! ### Reset (R281) -/

/-- What a `Reset` that abandons an outstanding transfer leaves in the chip: it may have seen all, part or none of the
frame (R281, U13; log 13). The chip itself is not reset. -/
def Chip.abandon (c : Chip) (port : Option PortReq) (k : Nat) : Chip :=
  match c, port with
  | .d0 d, some (.xfer req) => .d0 (d.respond (req.take (Config.seenOfAbandoned k))).2
  | c, _ => c

/-- The event `Reset`: the table of R55 at once, in any state. What the table calls unspecified becomes a free value
(log 5); no `Done` is emitted and nothing is sent on the bus. A transfer or delay that it abandons leaves no event in the
trace: the spec does not say whether it does, that is the model's choice (log 31). -/
def State.resetEvent (s : State) : State :=
  { s with
    addr := Config.freeWord s.free 0, len := Config.freeWord s.free 1, cur := Config.freeWord s.free 2,
    off := Config.freeWord s.free 3, n := Config.freeWord s.free 4, p := Config.freeWord s.free 5,
    att := Config.freeWord s.free 6, cnt := Config.freeWord s.free 7, opr := freeOpr s.free,
    wbuf := Config.freeBytes s.free 0, rbuf := Config.freeBytes s.free 1,
    fb := freeFrameBuffer s.free,
    ph := [], port := none, valid := false, model := 0xF#4, size := 0#32, pollLimit := 0#32,
    sr1 := (Config.freeWord s.free 9).setWidth 8, sr2 := (Config.freeWord s.free 10).setWidth 8,
    jedec := Config.freeWord s.free 11, result := (Config.freeWord s.free 12).setWidth 4,
    count := Config.freeWord s.free 13,
    chip := s.chip.abandon s.port s.free, free := s.free + 1, trace := s.trace ++ [.reset] }

/-! ### The host's requests -/

/-- The acceptance writes of R38a: the operands are latched, `CNT` and `RBUF` start empty, `Cmd` is emitted. -/
def State.latch (s : State) (op : HostOp) (addr len : Word) (wdata : Bytes) : State :=
  { s with opr := op.code, addr := addr, len := len, cnt := 0#32, wbuf := wdata, rbuf := [],
           trace := s.trace ++ [.cmd op.code addr len wdata] }

/-- Acceptance of `Cmd(op, addr, len, wdata)` (R38a, R132, R133, R262). In IDLE it latches the operands and pushes the
operation's routine at S1. An internal operation of a block with `EXPOSE_INTERNAL` false is refused: the same latching,
and the answer is the next step (`refusalStep`), because one step has one event (R310; log 32). A `Cmd` while an operation
runs, or with the wrong amount of data, is a move the host does not have. -/
def State.accept (s : State) (op : HostOp) (addr len : Word) (wdata : Bytes) : Result :=
  if s.ph ≠ [] ∨ s.port ≠ none then .fault .hostNotIdle
  else if wfCmdData op len wdata = false then .fault .malformedCommand
  else if op.internal = true ∧ s.params.exposeInternal = false then .next ((s.latch op addr len wdata).at .refusal 1 [])
  else .next ((s.latch op addr len wdata).at (.host op) 1 [])

/-- The answer to a refused `Cmd`: `Done(0, Refused, 0, [])` (R133, R252). -/
def refusalStep (k : Nat) (s : State) : Result :=
  match k with
  | 1 => .next (s.raise .refused)
  | _ => .fault .noSuchStep

/-- `Cfg(v)`: `POLL_LIMIT <- v` and nothing else (R44). -/
def State.configure (s : State) (v : Word) : State := { s with pollLimit := v, trace := s.trace ++ [.cfg v] }

/-- The value of a control register by its number, widened with zeros (R40). Numbers 9 to 15 are reserved and read as a
free value (U15; log 19). -/
def State.readReg (s : State) (number : BitVec 4) : Word :=
  if number = 0#4 then (BitVec.ofBool s.valid).setWidth 32
  else if number = 1#4 then s.model.setWidth 32
  else if number = 2#4 then s.size
  else if number = 3#4 then s.pollLimit
  else if number = 4#4 then s.sr1.setWidth 32
  else if number = 5#4 then s.sr2.setWidth 32
  else if number = 6#4 then s.jedec
  else if number = 7#4 then s.result.setWidth 32
  else if number = 8#4 then s.count
  else Config.freeWord s.free 14

/-- A register read by the host: the value stands on the host port; no register changes (R40, R262). -/
def State.answerRead (s : State) (number : BitVec 4) : State :=
  { s with regOut := some (number, s.readReg number), free := s.free + 1 }

/-- `x[i]`: a working register by its number (R15, R31). -/
def State.x (s : State) (i : Fin 8) : Word :=
  match i with
  | 0 => s.addr
  | 1 => s.len
  | 2 => s.cur
  | 3 => s.off
  | 4 => s.n
  | 5 => s.p
  | 6 => s.att
  | 7 => s.cnt

/-! ### The handle (R41, R184, R186) -/

/-- Clear the handle, as a failed `mount` does (R186). -/
def State.clearHandle (s : State) : State := { s with valid := false, model := 0xF#4, size := 0#32 }

/-- Set the handle to entry `k` of the identification table, of `pages` pages (R184 S3). -/
def State.setHandle (s : State) (k pages : Nat) : State :=
  { s with valid := true, model := BitVec.ofNat 4 k, size := BitVec.ofNat 32 pages }

end Sys2Proof.Machine
end

