-- ==== Sys2Proof/Machine/Erase.lean ====
section
/-! DEFINITION. The erase engine (45_erase.md): bounds check, write-enable, one erase frame, wait, write-disable. -/

namespace Sys2Proof.Machine

/-! ### Acceptance -/

/-- Acceptance of `erase` (R227). -/
def execErase (addr len : Word) (wdata : Bytes) (s : State) : Result := s.accept .erase addr len wdata

/-- Acceptance of `erase_all` (R229). -/
def execEraseAll (addr len : Word) (wdata : Bytes) (s : State) : Result := s.accept .eraseAll addr len wdata

/-- Acceptance of `sector_erase` (R217). -/
def execSectorErase (addr len : Word) (wdata : Bytes) (s : State) : Result := s.accept .sectorErase addr len wdata

/-- Acceptance of `block_erase_64k` (R220). -/
def execBlockErase64k (addr len : Word) (wdata : Bytes) (s : State) : Result := s.accept .blockErase64k addr len wdata

/-- Acceptance of `block_erase_32k` (R224). -/
def execBlockErase32k (addr len : Word) (wdata : Bytes) (s : State) : Result := s.accept .blockErase32k addr len wdata

/-! ### Routines -/

/-- Routine `sector_erase` (R216). -/
def sectorEraseStep (k : Nat) (rest : List Record) (s : State) : Result :=
  match k with
  | 1 => .next (if capacitySectors s.size ≤ sectorIndex s.cur then s.raise .paramRange else s.at .sectorErase 2 rest)
  | 2 => .next (s.call (.gate .writeEnable) .sectorErase 3 rest)
  | 3 => .next ((s.request (frameOf (.se (sectorAddr s.cur)))).at .sectorErase 4 rest)
  | 4 => .next (s.call .waitUntilReady .sectorErase 5 rest)
  | 5 => .next (s.call (.gate .writeDisable) .sectorErase 6 rest)
  | 6 => .next (s.ret rest)
  | _ => .fault .noSuchStep

/-- Routine `block_erase_64k` (R219). -/
def blockEraseStep (k : Nat) (rest : List Record) (s : State) : Result :=
  match k with
  | 1 => .next (if capacityBlocks s.size ≤ blockIndex s.cur then s.raise .paramRange else s.at .blockErase64k 2 rest)
  | 2 => .next (s.call (.gate .writeEnable) .blockErase64k 3 rest)
  | 3 => .next ((s.request (frameOf (.be64 (blockAddr s.cur)))).at .blockErase64k 4 rest)
  | 4 => .next (s.call .waitUntilReady .blockErase64k 5 rest)
  | 5 => .next (s.call (.gate .writeDisable) .blockErase64k 6 rest)
  | 6 => .next (s.ret rest)
  | _ => .fault .noSuchStep

/-! ### Host operations -/

/-- The steps of the host operation `sector_erase` (R217). -/
def sectorEraseOpStep (k : Nat) (rest : List Record) (s : State) : Result :=
  match k with
  | 1 => .next (State.at { s with cur := s.addr } (.host .sectorErase) 2 rest)
  | 2 => .next (s.call .sectorErase (.host .sectorErase) 3 rest)
  | 3 => .next (s.finish [])
  | _ => .fault .noSuchStep

/-- The steps of the host operation `block_erase_64k` (R220). -/
def blockEraseOpStep (k : Nat) (rest : List Record) (s : State) : Result :=
  match k with
  | 1 => .next (State.at { s with cur := s.addr } (.host .blockErase64k) 2 rest)
  | 2 => .next (s.call .blockErase64k (.host .blockErase64k) 3 rest)
  | 3 => .next (s.finish [])
  | _ => .fault .noSuchStep

/-- The steps of the host operation `block_erase_32k` (R224): no bus event, no check, `Unimplemented`. -/
def blockErase32kStep (k : Nat) (s : State) : Result :=
  match k with
  | 1 => .next (s.raise .unimplemented)
  | _ => .fault .noSuchStep

/-- The range check of `erase` (R227 S1): `end <= start`, or `end` beyond the capacity in bytes. -/
def eraseRangeBad (s : State) : Bool :=
  decide (s.len.toNat ≤ s.addr.toNat) || decide (capacityBytes s.size < s.len.toNat)

/-- The steps of the host operation `erase` (R227): `LEN` holds the end of the range. -/
def eraseStep (k : Nat) (rest : List Record) (s : State) : Result :=
  match k with
  | 1 => .next (if eraseRangeBad s then s.raise .paramRange else s.at (.host .erase) 2 rest)
  | 2 => .next (State.at { s with cur := s.addr } (.host .erase) 3 rest)
  | 3 => .next (if s.len.toNat ≤ s.cur.toNat then s.finish [] else s.at (.host .erase) 4 rest)
  | 4 => .next (s.call .sectorErase (.host .erase) 5 rest)
  | 5 => .next (State.at { s with cur := s.cur + BitVec.ofNat 32 sectorBytes } (.host .erase) 3 rest)
  | _ => .fault .noSuchStep

/-- The steps of the host operation `erase_all` (R229). -/
def eraseAllStep (k : Nat) (rest : List Record) (s : State) : Result :=
  match k with
  | 1 => .next (if s.valid = false then s.raise .paramRange else s.at (.host .eraseAll) 2 rest)
  | 2 => .next (s.call (.gate .writeEnable) (.host .eraseAll) 3 rest)
  | 3 => .next ((s.request (frameOf .ce)).at (.host .eraseAll) 4 rest)
  | 4 => .next (s.call .waitUntilReady (.host .eraseAll) 5 rest)
  | 5 => .next (s.call (.gate .writeDisable) (.host .eraseAll) 6 rest)
  | 6 => .next (s.finish [])
  | _ => .fault .noSuchStep

end Sys2Proof.Machine
end

