-- ==== Sys2Proof/Machine/Identification.lean ====
section
/-! DEFINITION. Identification (42_identification.md): `read_jedec` and `mount`. -/

namespace Sys2Proof.Machine

/-- `MFR_ID`, the expected producer id (R181). -/
def expectedManufacturer : Byte := 0xEF#8

/-- The first entry of the table with the given id, its index counted from `k`, and its capacity (R184 S3). -/
def scanTable (id : BitVec 16) : Nat → IdTable → Option (Nat × Nat)
  | _, [] => none
  | k, (i, pages) :: rest => if i = id then some (k, pages) else scanTable id (k + 1) rest

/-- Acceptance of `mount` (R184). -/
def execMount (addr len : Word) (wdata : Bytes) (s : State) : Result := s.accept .mount addr len wdata

/-- Acceptance of `read_jedec` (R182). -/
def execReadJedec (addr len : Word) (wdata : Bytes) (s : State) : Result := s.accept .readJedec addr len wdata

/-- Routine `read_jedec` as `mount` calls it (R182). `JEDEC` is written when the transfer of S1 completes
(`execJedecid`). -/
def readJedecStep (k : Nat) (rest : List Record) (s : State) : Result :=
  match k with
  | 1 => .next ((s.request (frameOf .jedecid)).at .readJedec 2 rest)
  | 2 => .next (s.ret rest)
  | _ => .fault .noSuchStep

/-- The steps of the host operation `read_jedec` (R182). -/
def readJedecOpStep (k : Nat) (rest : List Record) (s : State) : Result :=
  match k with
  | 1 => .next ((s.request (frameOf .jedecid)).at (.host .readJedec) 2 rest)
  | 2 => .next (State.finish { s with rbuf := jedecBytes s.jedec } (jedecBytes s.jedec))
  | _ => .fault .noSuchStep

/-- The steps of the host operation `mount` (R184): the manufacturer first, then the table scan; a failure clears the
handle (R186). -/
def mountStep (k : Nat) (rest : List Record) (s : State) : Result :=
  match k with
  | 1 => .next (s.call .readJedec (.host .mount) 2 rest)
  | 2 =>
    .next (if manufacturer s.jedec ≠ expectedManufacturer then s.clearHandle.raise .wrongManufacturer
           else s.at (.host .mount) 3 rest)
  | 3 =>
    match scanTable (deviceId s.jedec) 0 s.params.idTable with
    | some (j, pages) => .next ((s.setHandle j pages).finish [])
    | none => .next (s.at (.host .mount) 4 rest)
  | 4 => .next (s.clearHandle.raise .unidentifiedDevice)
  | _ => .fault .noSuchStep

end Sys2Proof.Machine
end

