-- ==== Sys2Proof/Machine/PageProgram.lean ====
section
/-! DEFINITION. The page program engine (43_page_program.md). -/

namespace Sys2Proof.Machine

/-- Acceptance of `page_program` (R194). -/
def execPageProgram (addr len : Word) (wdata : Bytes) (s : State) : Result := s.accept .pageProgram addr len wdata

/-- The page-program frame of the current registers (R191 S4): opcode, `A24(CUR)`, `WBUF[OFF..OFF+P]`. -/
def State.programFrame (s : State) : Bytes := frameOf (.pp (wireAddr s.cur) (payload s.wbuf s.off s.p))

/-- Routine `page_program` (R191): wait, write-enable, clip, one frame, write-disable. -/
def pageProgramStep (k : Nat) (rest : List Record) (s : State) : Result :=
  match k with
  | 1 => .next (s.call .waitUntilReady .pageProgram 2 rest)
  | 2 => .next (s.call (.gate .writeEnable) .pageProgram 3 rest)
  | 3 => .next (State.at { s with p := clip s.n s.cur } .pageProgram 4 rest)
  | 4 => .next ((State.request { s with fb := fillFrameBuffer s.fb s.programFrame } s.programFrame).at .pageProgram 5 rest)
  | 5 => .next (s.call (.gate .writeDisable) .pageProgram 6 rest)
  | 6 => .next (s.ret rest)
  | _ => .fault .noSuchStep

/-- The steps of the host operation `page_program` (R194). -/
def pageProgramOpStep (k : Nat) (rest : List Record) (s : State) : Result :=
  match k with
  | 1 => .next (State.at { s with cur := s.addr, off := 0#32, n := s.len } (.host .pageProgram) 2 rest)
  | 2 => .next (s.call .pageProgram (.host .pageProgram) 3 rest)
  | 3 => .next (State.finish { s with cnt := s.p } [])
  | _ => .fault .noSuchStep

end Sys2Proof.Machine
end

