-- ==== Sys2Proof/Machine/StatusSync.lean ====
section
/-! DEFINITION. The status poller, the busy-wait and the write-enable gate (41_status_sync.md): three routines and five
host operations. In every step function `k` is the step number and `rest` the records below the routine's own. -/

namespace Sys2Proof.Machine

/-! ### Acceptance -/

/-- Acceptance of `read_status` (R164). -/
def execReadStatus (addr len : Word) (wdata : Bytes) (s : State) : Result := s.accept .readStatus addr len wdata

/-- Acceptance of `wait_until_ready` (R166). -/
def execWaitUntilReady (addr len : Word) (wdata : Bytes) (s : State) : Result := s.accept .waitUntilReady addr len wdata

/-- Acceptance of `write_enable` (R169). -/
def execWriteEnable (addr len : Word) (wdata : Bytes) (s : State) : Result := s.accept .writeEnable addr len wdata

/-- Acceptance of `write_disable` (R170). -/
def execWriteDisable (addr len : Word) (wdata : Bytes) (s : State) : Result := s.accept .writeDisable addr len wdata

/-- Acceptance of `volatile_status_write_enable` (R171). -/
def execVolatileStatusWriteEnable (addr len : Word) (wdata : Bytes) (s : State) : Result :=
  s.accept .volatileStatusWriteEnable addr len wdata

/-! ### Routines -/

/-- Routine `read_status` (R163). The captures `SR1 <- resp[1]` and `SR2 <- resp[1]` are made when the transfers of S1
and S3 complete (`execRdsr1`, `execRdsr2`). -/
def readStatusStep (k : Nat) (rest : List Record) (s : State) : Result :=
  match k with
  | 1 => .next ((s.request (frameOf .rdsr1)).at .readStatus 2 rest)
  | 2 => .next ((s.requestDelay s.params.tSettle).at .readStatus 3 rest)
  | 3 => .next ((s.request (frameOf .rdsr2)).at .readStatus 4 rest)
  | 4 => .next ((s.requestDelay s.params.tSettle).at .readStatus 5 rest)
  | 5 => .next (s.ret rest)
  | _ => .fault .noSuchStep

/-- Routine `wait_until_ready` (R165). -/
def waitStep (k : Nat) (rest : List Record) (s : State) : Result :=
  match k with
  | 1 => .next (State.at { s with att := 0#32 } .waitUntilReady 2 rest)
  | 2 => .next (s.call .readStatus .waitUntilReady 3 rest)
  | 3 =>
    .next (if busy s.sr1 then State.at { s with att := nextAttempt s.att } .waitUntilReady 4 rest
           else State.ret { s with att := nextAttempt s.att } rest)
  | 4 => .next (if attemptsSpent s.pollLimit s.att then s.raise .timeout else s.at .waitUntilReady 5 rest)
  | 5 => .next ((s.requestDelay s.params.tPoll).at .waitUntilReady 2 rest)
  | _ => .fault .noSuchStep

/-- The frame of a gate (R168). -/
def Gate.frame : Gate → Bytes
  | .writeEnable => frameOf .wren
  | .writeDisable => frameOf .wrdi
  | .volatileStatusWriteEnable => frameOf .vsrwe

/-- Routine `gate(opc)` (R168). -/
def gateStep (g : Gate) (k : Nat) (rest : List Record) (s : State) : Result :=
  match k with
  | 1 => .next ((s.requestDelay s.params.tGate).at (.gate g) 2 rest)
  | 2 => .next ((s.request g.frame).at (.gate g) 3 rest)
  | 3 => .next ((s.requestDelay s.params.tGate).at (.gate g) 4 rest)
  | 4 => .next (s.ret rest)
  | _ => .fault .noSuchStep

/-! ### Host operations -/

/-- The steps of the host operation `read_status` (R164). -/
def readStatusOpStep (k : Nat) (rest : List Record) (s : State) : Result :=
  match k with
  | 1 => .next (s.call .readStatus (.host .readStatus) 2 rest)
  | 2 => .next (State.finish { s with rbuf := [s.sr1, s.sr2] } [s.sr1, s.sr2])
  | _ => .fault .noSuchStep

/-- The steps of the host operation `wait_until_ready` (R166). -/
def waitOpStep (k : Nat) (rest : List Record) (s : State) : Result :=
  match k with
  | 1 => .next (s.call .waitUntilReady (.host .waitUntilReady) 2 rest)
  | 2 => .next (s.finish [])
  | _ => .fault .noSuchStep

/-- The steps of the host operations `write_enable`, `write_disable` and `volatile_status_write_enable` (R169, R170,
R171): one gate each. -/
def gateOpStep (op : HostOp) (g : Gate) (k : Nat) (rest : List Record) (s : State) : Result :=
  match k with
  | 1 => .next (s.call (.gate g) (.host op) 2 rest)
  | 2 => .next (s.finish [])
  | _ => .fault .noSuchStep

end Sys2Proof.Machine
end

