-- ==== Sys2Proof/Machine/Validator.lean ====
section
/-! DEFINITION. The parameter validator (40_validator.md): the pure check of R151 and the host operation of R152. -/

namespace Sys2Proof.Machine

/-- `check_param(a, n)` (R151): handle unset, buffer empty, start page, end page. The sum does not wrap (R153). -/
def State.paramsValid (s : State) (a n : Word) : Bool :=
  if s.valid = false then false
  else if n = 0#32 then false
  else if s.size.toNat ≤ pageIndex a then false
  else if s.size.toNat < (a.toNat + n.toNat) / pageBytes then false
  else true

/-- Acceptance of the host operation `check_param` (R152). -/
def execCheckParam (addr len : Word) (wdata : Bytes) (s : State) : Result := s.accept .checkParam addr len wdata

/-- The steps of the host operation `check_param` (R152). -/
def checkParamStep (k : Nat) (s : State) : Result :=
  match k with
  | 1 => .next (if s.paramsValid s.addr s.len then s.finish [] else s.raise .paramRange)
  | _ => .fault .noSuchStep

end Sys2Proof.Machine
end

