-- ==== Sys2Proof/Machine/Wire.lean ====
section
/-! DEFINITION. The meanings of the twelve wire instructions (30_encoding.md section 2): one transfer and what is done
with the response. The routine that decides when a frame is sent is in the family's file. -/

namespace Sys2Proof.Machine

/-- `XFER(req)` with the response discarded (R111: response bytes the block uses: none). -/
def exchangeOnly (req : Bytes) (s : State) : Result := .next (s.exchange req)

/-- `WREN` (R113). -/
def execWren (s : State) : Result := exchangeOnly (frameOf .wren) s

/-- `WRDI` (R114). -/
def execWrdi (s : State) : Result := exchangeOnly (frameOf .wrdi) s

/-- `VSRWE` (R115). -/
def execVsrwe (s : State) : Result := exchangeOnly (frameOf .vsrwe) s

/-- `RDSR1`: `SR1 <- resp[1]` (R116). -/
def execRdsr1 (s : State) : Result :=
  .next { s.exchange (frameOf .rdsr1) with sr1 := respByte (s.response (frameOf .rdsr1)) 1 }

/-- `RDSR2`: `SR2 <- resp[1]` (R117). -/
def execRdsr2 (s : State) : Result :=
  .next { s.exchange (frameOf .rdsr2) with sr2 := respByte (s.response (frameOf .rdsr2)) 1 }

/-- `JEDECID`: `JEDEC <- {resp[0], resp[1], resp[2], resp[3]}` (R118). -/
def execJedecid (s : State) : Result :=
  .next { s.exchange (frameOf .jedecid) with jedec := jedecOf (s.response (frameOf .jedecid)) }

/-- `READ`: `RBUF <- resp` (R119). A total length of 0 is no frame (R9, R119: `L >= 1`). -/
def execDataRead (a : Addr24) (l : Word) (s : State) : Result :=
  if l = 0#32 then .fault .illegalFrame
  else .next { s.exchange (frameOf (.dataRead a l)) with rbuf := s.response (frameOf (.dataRead a l)) }

/-- `PP` (R120). After the transfer the frame buffer's content is unspecified (R35; log 6): free bytes of their own, not those of the answer. -/
def execPp (a : Addr24) (d : Bytes) (s : State) : Result :=
  .next { s.exchange (frameOf (.pp a d)) with fb := freeFrameBuffer s.free }

/-- `SE` (R121). -/
def execSe (a : Addr24) (s : State) : Result := exchangeOnly (frameOf (.se a)) s

/-- `BE32`: built and never transmitted (R122). What the block does in its place is to end the operation with
`Unimplemented`, without a bus event (R224; log 15). -/
def execBe32 (_ : Addr24) (s : State) : Result := .next (s.raise .unimplemented)

/-- `BE64` (R123). -/
def execBe64 (a : Addr24) (s : State) : Result := exchangeOnly (frameOf (.be64 a)) s

/-- `CE` (R124). -/
def execCe (s : State) : Result := exchangeOnly (frameOf .ce) s

end Sys2Proof.Machine
end

