-- ==== Sys2Proof/Machine/WriteRead.lean ====
section
/-! DEFINITION. The write orchestrator and the data read (44_write_read.md). -/

namespace Sys2Proof.Machine

/-- Acceptance of `write` (R201). -/
def execWrite (addr len : Word) (wdata : Bytes) (s : State) : Result := s.accept .write addr len wdata

/-- Acceptance of `read` (R205). -/
def execRead (addr len : Word) (wdata : Bytes) (s : State) : Result := s.accept .read addr len wdata

/-- The steps of the host operation `write` (R201). -/
def writeStep (k : Nat) (rest : List Record) (s : State) : Result :=
  match k with
  | 1 => .next (if s.paramsValid s.addr s.len then s.at (.host .write) 2 rest else s.raise .paramRange)
  | 2 => .next (State.at { s with cur := s.addr, off := 0#32 } (.host .write) 3 rest)
  | 3 => .next (if s.len.toNat ≤ s.off.toNat then s.finish [] else s.at (.host .write) 4 rest)
  | 4 => .next (State.at { s with n := offered s.len s.off } (.host .write) 5 rest)
  | 5 => .next (s.call .pageProgram (.host .write) 6 rest)
  | 6 => .next (State.at { s with off := s.off + s.p, cur := s.cur + s.p, cnt := s.off + s.p } (.host .write) 3 rest)
  | _ => .fault .noSuchStep

/-- The frame of the current `read` (R205 S2). -/
def State.readFrame (s : State) : Bytes := frameOf (.dataRead (wireAddr s.addr) s.len)

/-- The steps of the host operation `read` (R205). `RBUF <- resp` is made when the transfer of S2 completes
(`execDataRead`). -/
def readStep (k : Nat) (rest : List Record) (s : State) : Result :=
  match k with
  | 1 => .next (if s.paramsValid s.addr s.len then s.at (.host .read) 2 rest else s.raise .paramRange)
  | 2 => .next ((s.request s.readFrame).at (.host .read) 3 rest)
  | 3 => .next (s.finish s.rbuf)
  | _ => .fault .noSuchStep

end Sys2Proof.Machine
end

