-- ==== Sys2Proof/Machine/Dispatch.lean ====
section
/-! DEFINITION. One arm per instruction: a wire frame is performed by its transfer, a host operation by its acceptance. -/

namespace Sys2Proof.Machine

def exec (i : Instr) (s : State) : Host.Outcome State Fault Refusal :=
  match i with
  -- the wire command set
  | .wren => Sys2Proof.Machine.execWren s
  | .wrdi => Sys2Proof.Machine.execWrdi s
  | .vsrwe => Sys2Proof.Machine.execVsrwe s
  | .rdsr1 => Sys2Proof.Machine.execRdsr1 s
  | .rdsr2 => Sys2Proof.Machine.execRdsr2 s
  | .jedecid => Sys2Proof.Machine.execJedecid s
  | .dataRead a l => Sys2Proof.Machine.execDataRead a l s
  | .pp a d => Sys2Proof.Machine.execPp a d s
  | .se a => Sys2Proof.Machine.execSe a s
  | .be32 a => Sys2Proof.Machine.execBe32 a s
  | .be64 a => Sys2Proof.Machine.execBe64 a s
  | .ce => Sys2Proof.Machine.execCe s
  -- the host operations
  | .mount addr len wdata => Sys2Proof.Machine.execMount addr len wdata s
  | .read addr len wdata => Sys2Proof.Machine.execRead addr len wdata s
  | .write addr len wdata => Sys2Proof.Machine.execWrite addr len wdata s
  | .erase addr len wdata => Sys2Proof.Machine.execErase addr len wdata s
  | .eraseAll addr len wdata => Sys2Proof.Machine.execEraseAll addr len wdata s
  | .checkParam addr len wdata => Sys2Proof.Machine.execCheckParam addr len wdata s
  | .readStatus addr len wdata => Sys2Proof.Machine.execReadStatus addr len wdata s
  | .waitUntilReady addr len wdata => Sys2Proof.Machine.execWaitUntilReady addr len wdata s
  | .writeEnable addr len wdata => Sys2Proof.Machine.execWriteEnable addr len wdata s
  | .writeDisable addr len wdata => Sys2Proof.Machine.execWriteDisable addr len wdata s
  | .volatileStatusWriteEnable addr len wdata => Sys2Proof.Machine.execVolatileStatusWriteEnable addr len wdata s
  | .readJedec addr len wdata => Sys2Proof.Machine.execReadJedec addr len wdata s
  | .pageProgram addr len wdata => Sys2Proof.Machine.execPageProgram addr len wdata s
  | .sectorErase addr len wdata => Sys2Proof.Machine.execSectorErase addr len wdata s
  | .blockErase64k addr len wdata => Sys2Proof.Machine.execBlockErase64k addr len wdata s
  | .blockErase32k addr len wdata => Sys2Proof.Machine.execBlockErase32k addr len wdata s

end Sys2Proof.Machine
end

