-- ==== Sys2Proof/Machine/Sequencer.lean ====
section
/-! DEFINITION. The sequencer (R36 to R38): the step of the top record of `PH`, the completion of an outstanding
transfer or delay, the taking of the host's next request, and the reset input; and how a word of the opcode table comes
to be the next instruction. -/

namespace Sys2Proof.Machine

/-- The step named by a record of `PH`, with the records below it (R37, R38b). -/
def routineStep (r : Record) (rest : List Record) (s : State) : Result :=
  match r.routine with
  | .host .mount => mountStep r.step rest s
  | .host .read => readStep r.step rest s
  | .host .write => writeStep r.step rest s
  | .host .erase => eraseStep r.step rest s
  | .host .eraseAll => eraseAllStep r.step rest s
  | .host .checkParam => checkParamStep r.step s
  | .host .readStatus => readStatusOpStep r.step rest s
  | .host .waitUntilReady => waitOpStep r.step rest s
  | .host .writeEnable => gateOpStep .writeEnable .writeEnable r.step rest s
  | .host .writeDisable => gateOpStep .writeDisable .writeDisable r.step rest s
  | .host .volatileStatusWriteEnable => gateOpStep .volatileStatusWriteEnable .volatileStatusWriteEnable r.step rest s
  | .host .readJedec => readJedecOpStep r.step rest s
  | .host .pageProgram => pageProgramOpStep r.step rest s
  | .host .sectorErase => sectorEraseOpStep r.step rest s
  | .host .blockErase64k => blockEraseOpStep r.step rest s
  | .host .blockErase32k => blockErase32kStep r.step s
  | .readStatus => readStatusStep r.step rest s
  | .waitUntilReady => waitStep r.step rest s
  | .gate g => gateStep g r.step rest s
  | .readJedec => readJedecStep r.step rest s
  | .pageProgram => pageProgramStep r.step rest s
  | .sectorErase => sectorEraseStep r.step rest s
  | .blockErase64k => blockEraseStep r.step rest s
  | .refusal => refusalStep r.step s

/-- The host's next move in IDLE (R262). With none, the block waits (R282). -/
def hostStep (s : State) : Result :=
  match s.host with
  | [] => .next s
  | .cmd w d :: more => exec (decodeCommand w d) { s with host := more }
  | .cfg v :: more => .next (State.configure { s with host := more } v)
  | .readReg number :: more => .next (State.answerRead { s with host := more } number)

/-- The completion of an outstanding request: the frame on the transfer port is the instruction performed (R9); a delay
is an event (R10). The event is appended here, on completion, and not when the request is made: so a request that a
`Reset` abandons leaves none, which is the model's choice (log 31). That every outstanding request returns, in the very
next step unless a `Reset` comes first, is the model's choice too (log 33). -/
def portStep (r : PortReq) (s : State) : Result :=
  match r with
  | .xfer req =>
    match decodeFrame req with
    | .ok i => exec i { s with port := none }
    | .error _ => .fault .illegalFrame
  | .delay ms => .next (State.emit { s with port := none } (.delay ms))

/-- One step of the block, no reset being due: an outstanding request returns first, then the top record of `PH` is
stepped, and in IDLE the host moves (R38, R83). -/
def advance (s : State) : Result :=
  match s.port with
  | some r => portStep r s
  | none =>
    match s.ph with
    | r :: rest => routineStep r rest s
    | [] => hostStep s

/-- One step of the machine: the reset input overrides everything (R252, R281). -/
def tick (s : State) : Result :=
  match s.resets with
  | [] => advance s
  | 0 :: later => .next (State.resetEvent { s with resets := later })
  | (m + 1) :: later => advance { s with resets := m :: later }

/-- Put a packet where the next step takes its instruction: a frame on the transfer port, a command at the head of the
host's requests with the block in IDLE. No reset is due before it (log 2). -/
def State.placePacket (s : State) (p : Packet) : State :=
  match p with
  | .frame b => { s with resets := [], port := some (.xfer b) }
  | .command w d => { s with resets := [], port := none, ph := [], host := .cmd w d :: s.host }

end Sys2Proof.Machine
end

