-- ==== Sys2Proof/Machine/Step.lean ====
section
/-! DEFINITION. The step function of the machine, and the placing of a table word where the next step fetches it. -/

namespace Sys2Proof.Machine

/-- One step of the machine (R38). -/
def step (s : State) : Host.Outcome State Fault Refusal := tick s

/-- `s` with the instruction of a word of the opcode table where the next step takes its instruction; a word that is no
packet changes nothing (log 2, log 20). -/
def State.withFetchWord (s : State) (nbits w : Nat) : State :=
  match tablePacket nbits w with
  | some p => s.placePacket p
  | none => s

end Sys2Proof.Machine
end

