-- ==== Sys2Proof/Safety.lean ====
section
/-! DEFINITION. The terms that claims use: runs, the memory of the attached device as it is read, the invariants of the
handle, of the phase register, of the frames and of the write-enable bracket, and the event sequences that the rules
write out. -/

namespace Sys2Proof.Machine

/-! ### Runs -/

/-- `k` steps of the machine. -/
def run (k : Nat) (s : State) : Result := Host.Core.run Sys2Proof.core k s

/-- Some number of steps leads from `s` to a state with `Q`. A transfer or delay on the way returns in one step: that it
returns at all is the model's choice (log 33). -/
def Reaches (s : State) (Q : State → Prop) : Prop := ∃ k u, run k s = .next u ∧ Q u

/-- The block is in IDLE with nothing outstanding on a port (R36, R38). -/
abbrev State.Idle (s : State) : Prop := s.ph = [] ∧ s.port = none

/-- The block is in IDLE and no `Reset` will come. -/
abbrev State.Quiet (s : State) : Prop := s.ph = [] ∧ s.port = none ∧ s.resets = []

/-- The host may ask for `op` in this block: it is public, or the internal operations are exposed (R261). -/
abbrev State.Accepts (s : State) (op : HostOp) : Prop := op.internal = false ∨ s.params.exposeInternal = true

/-! ### Memory as it is read -/

/-- The byte of the attached device's array at an address; an unknown chip shows none. -/
def Chip.read (c : Chip) (a : Nat) : Option Byte :=
  match c with
  | .unknown _ => none
  | .d0 d => some (d.mem.read a)

/-- Reading one byte of flash memory. -/
def State.flashByte (s : State) (a : Nat) : Option Byte := s.chip.read a

/-- The attached device, if it is D0, is one that R98 allows; in particular its memory has the canonical form. -/
def State.ChipOk (s : State) : Prop := ∀ d, s.chip = .d0 d → d.wf = true

/-! ### The handle (R41) -/

/-- R41: `VALID = 0` means `SIZE = 0` and `MODEL = 0xF`; `VALID = 1` means that `MODEL` is an index of `ID_TABLE` and
`SIZE` the capacity there. -/
def State.HandleOk (s : State) : Prop :=
  (s.valid = false → s.size = 0#32 ∧ s.model = 0xF#4) ∧
  (s.valid = true → s.model.toNat ≤ 8 ∧ ∃ id, s.params.idTable[s.model.toNat]? = some (id, s.size.toNat))

/-! ### The phase register (R36, R37) -/

/-- The number of the last step of a routine, from the rule that R37 names for it. -/
def Routine.lastStep : Routine → Nat
  | .host .mount => 4
  | .host .read => 3
  | .host .write => 6
  | .host .erase => 5
  | .host .eraseAll => 6
  | .host .checkParam => 1
  | .host .readStatus => 2
  | .host .waitUntilReady => 2
  | .host .writeEnable => 2
  | .host .writeDisable => 2
  | .host .volatileStatusWriteEnable => 2
  | .host .readJedec => 2
  | .host .pageProgram => 3
  | .host .sectorErase => 3
  | .host .blockErase64k => 3
  | .host .blockErase32k => 1
  | .readStatus => 5
  | .waitUntilReady => 5
  | .gate _ => 4
  | .readJedec => 2
  | .pageProgram => 6
  | .sectorErase => 6
  | .blockErase64k => 6
  | .refusal => 1

/-- The routine that step `k` of a routine calls, if it is a call (R37, column "called by"). -/
def Routine.callAt : Routine → Nat → Option Routine
  | .host .mount, 1 => some .readJedec
  | .host .write, 5 => some .pageProgram
  | .host .erase, 4 => some .sectorErase
  | .host .eraseAll, 2 => some (.gate .writeEnable)
  | .host .eraseAll, 4 => some .waitUntilReady
  | .host .eraseAll, 5 => some (.gate .writeDisable)
  | .host .readStatus, 1 => some .readStatus
  | .host .waitUntilReady, 1 => some .waitUntilReady
  | .host .writeEnable, 1 => some (.gate .writeEnable)
  | .host .writeDisable, 1 => some (.gate .writeDisable)
  | .host .volatileStatusWriteEnable, 1 => some (.gate .volatileStatusWriteEnable)
  | .host .pageProgram, 2 => some .pageProgram
  | .host .sectorErase, 2 => some .sectorErase
  | .host .blockErase64k, 2 => some .blockErase64k
  | .waitUntilReady, 2 => some .readStatus
  | .pageProgram, 1 => some .waitUntilReady
  | .pageProgram, 2 => some (.gate .writeEnable)
  | .pageProgram, 5 => some (.gate .writeDisable)
  | .sectorErase, 2 => some (.gate .writeEnable)
  | .sectorErase, 4 => some .waitUntilReady
  | .sectorErase, 5 => some (.gate .writeDisable)
  | .blockErase64k, 2 => some (.gate .writeEnable)
  | .blockErase64k, 4 => some .waitUntilReady
  | .blockErase64k, 5 => some (.gate .writeDisable)
  | _, _ => none

/-- A routine that acceptance starts (R131, R133); the others are started by calls only. -/
def Routine.isHost : Routine → Bool
  | .host _ | .refusal => true
  | _ => false

/-- A record whose step number its routine has. -/
def Record.inRange (r : Record) : Bool := decide (1 ≤ r.step) && decide (r.step ≤ r.routine.lastStep)

/-- A stack that calls can build: the bottom record is one that acceptance pushed, and below every other record stands its
caller, at the step after the call (R36, R38c). -/
def legalStack : List Record → Bool
  | [] => true
  | [r] => r.inRange && r.routine.isHost
  | r :: c :: rest => r.inRange && decide (c.routine.callAt (c.step - 1) = some r.routine) && legalStack (c :: rest)

/-- The request that may be outstanding while a record is on top: the one its previous step made. -/
def Record.mayAwait (r : Record) (q : PortReq) : Prop :=
  (r = ⟨.readStatus, 2⟩ ∧ q = .xfer (frameOf .rdsr1)) ∨
  (r = ⟨.readStatus, 4⟩ ∧ q = .xfer (frameOf .rdsr2)) ∨
  ((r = ⟨.readStatus, 3⟩ ∨ r = ⟨.readStatus, 5⟩ ∨ r = ⟨.waitUntilReady, 2⟩) ∧ ∃ ms, q = .delay ms) ∨
  (∃ g, (r = ⟨.gate g, 2⟩ ∨ r = ⟨.gate g, 4⟩) ∧ ∃ ms, q = .delay ms) ∨
  (∃ g, r = ⟨.gate g, 3⟩ ∧ q = .xfer g.frame) ∨
  ((r = ⟨.readJedec, 2⟩ ∨ r = ⟨.host .readJedec, 2⟩) ∧ q = .xfer (frameOf .jedecid)) ∨
  (r = ⟨.pageProgram, 5⟩ ∧ ∃ a d, q = .xfer (frameOf (.pp a d))) ∨
  (r = ⟨.sectorErase, 4⟩ ∧ ∃ a, q = .xfer (frameOf (.se a))) ∨
  (r = ⟨.blockErase64k, 4⟩ ∧ ∃ a, q = .xfer (frameOf (.be64 a))) ∨
  (r = ⟨.host .eraseAll, 4⟩ ∧ q = .xfer (frameOf .ce)) ∨
  (r = ⟨.host .read, 3⟩ ∧ ∃ a l, q = .xfer (frameOf (.dataRead a l)))

/-- The phase register holds a stack that calls can build, and a port is in use only as the routine on top asked. -/
def State.PhaseOk (s : State) : Prop :=
  legalStack s.ph = true ∧ ∀ q, s.port = some q → ∃ r rest, s.ph = r :: rest ∧ r.mayAwait q

/-! ### Frames (R9, R127, R195) -/

/-- A frame that the block may send: it decodes to a well-formed instruction other than `BE32`. So its first byte is one
of the eleven opcodes of R127, an erase address is aligned and a payload ends in its page. -/
def blockFrame (b : Bytes) : Bool :=
  match decodeFrame b with
  | .ok (.be32 _) => false
  | .ok i => i.wf
  | .error _ => false

/-- Every frame on the port or in the trace is one the block may send, every answer has the frame's length (R9), and
the operands of a frame about to be built make such a frame (R119, R192). -/
def State.FramesOk (s : State) : Prop :=
  (∀ b, s.port = some (.xfer b) → blockFrame b = true) ∧
  (∀ req resp, Event.xfer req resp ∈ s.trace → blockFrame req = true ∧ resp.length = req.length) ∧
  (∀ rest, s.ph = ⟨.pageProgram, 4⟩ :: rest → s.p.toNat ≤ pageRoom s.cur) ∧
  (∀ rest, s.ph = ⟨.host .read, 2⟩ :: rest → s.len ≠ 0#32)

/-- The host keeps its contract on data: every `Cmd` to come that takes data has exactly `len` bytes of it (R132). -/
def State.HostOk (s : State) : Prop :=
  ∀ w d, HostReq.cmd w d ∈ s.host → (decodeCommand w d).wf = true

/-! ### The write-enable bracket (R172, R291) -/

/-- Whether an event is a delay. -/
def Event.isDelay : Event → Bool
  | .delay _ => true
  | _ => false

/-- The frame of the last event of a trace, delays skipped, if that event is a transfer. -/
def lastSent (tr : List Event) : Option Bytes :=
  match tr.reverse.dropWhile Event.isDelay with
  | .xfer req _ :: _ => some req
  | _ => none

/-- A frame that programs or erases: opcodes 0x02, 0x20, 0xD8, 0xC7 (R291). -/
def mutatingFrame (b : Bytes) : Bool :=
  match b with
  | [] => false
  | op :: _ => decide (op = opcPp) || decide (op = opcSe) || decide (op = opcBe64) || decide (op = opcCe)

/-- Every mutating frame of a trace directly follows a write-enable frame, with only delays between (R291). -/
def Bracketed (tr : List Event) : Prop :=
  ∀ before req resp after, tr = before ++ Event.xfer req resp :: after → mutatingFrame req = true →
    lastSent before = some (frameOf .wren)

/-- The records at which a write-enable has just been sent and the mutating frame comes next. -/
def Record.enabled (r : Record) : Bool :=
  decide (r = ⟨.pageProgram, 3⟩) || decide (r = ⟨.pageProgram, 4⟩) || decide (r = ⟨.sectorErase, 3⟩)
    || decide (r = ⟨.blockErase64k, 3⟩) || decide (r = ⟨.host .eraseAll, 3⟩) || decide (r = ⟨.gate .writeEnable, 4⟩)

/-- The bracket so far, and what keeps it: where the sequencer is about to send a mutating frame, or has one on the
port, the last frame sent is the write-enable. -/
def State.BracketOk (s : State) : Prop :=
  Bracketed s.trace ∧
  (∀ b, s.port = some (.xfer b) → mutatingFrame b = true → lastSent s.trace = some (frameOf .wren)) ∧
  (∀ r rest, s.ph = r :: rest → r.enabled = true → lastSent s.trace = some (frameOf .wren)) ∧
  (∀ rest, s.ph = ⟨.gate .writeEnable, 3⟩ :: rest → s.port = none → lastSent s.trace = some (frameOf .wren))

/-! ### Event sequences of the rules -/

/-- Whether an event is one of the bus or of the delay port (R38: a step has at most one). -/
def Event.isBus : Event → Bool
  | .xfer _ _ => true
  | .delay _ => true
  | _ => false

/-- The events of a list of port uses, in order, with the answers that a chip gives from free-value index `k` on: the
rules write the traces of their routines as such lists. -/
def playBus (c : Chip) (k : Nat) : List PortReq → List Event
  | [] => []
  | .delay ms :: rest => .delay ms :: playBus c k rest
  | .xfer req :: rest => .xfer req (c.answer k req) :: playBus (c.after req) (k + 1) rest

/-- The chip after a list of port uses. -/
def Chip.played (c : Chip) : List PortReq → Chip
  | [] => c
  | .delay _ :: rest => c.played rest
  | .xfer req :: rest => (c.after req).played rest

/-- The port uses of one `read_status` (R163). -/
def statusBus (p : Params) : List PortReq :=
  [.xfer [0x05#8, 0x00#8], .delay p.tSettle, .xfer [0x35#8, 0x00#8], .delay p.tSettle]

/-- The port uses of one gate (R168). -/
def gateBus (p : Params) (opc : Byte) : List PortReq := [.delay p.tGate, .xfer [opc], .delay p.tGate]

/-- The port uses of `m` polls that find the chip busy and are each followed by the poll delay (R165). -/
def pollBus (p : Params) : Nat → List PortReq
  | 0 => []
  | m + 1 => statusBus p ++ .delay p.tPoll :: pollBus p m

/-- The port uses of `page_program` with the frame `f`, the chip being ready at the first poll (R191). -/
def programBus (p : Params) (f : Bytes) : List PortReq :=
  statusBus p ++ gateBus p 0x06#8 ++ [.xfer f] ++ gateBus p 0x04#8

/-- The port uses of an erase with the frame `f`, the chip being ready at the first poll (R216, R219, R229). -/
def eraseBus (p : Params) (f : Bytes) : List PortReq :=
  gateBus p 0x06#8 ++ [.xfer f] ++ statusBus p ++ gateBus p 0x04#8

/-- The frames of a trace, in order. -/
def framesOf (tr : List Event) : List Bytes :=
  tr.filterMap (fun e => match e with
    | .xfer req _ => some req
    | _ => none)

/-- Whether a frame is a sector-erase frame. -/
def isSectorErase (b : Bytes) : Bool := decide (b.head? = some opcSe)

/-- Whether a frame is a page-program frame. -/
def isPageProgram (b : Bytes) : Bool := decide (b.head? = some opcPp)

/-- Where the data of the `i`-th `page_program` call of a `write` at `a` starts: the first call ends with its page, every
later one has a page of its own (R202). -/
def chunkStart (a : Word) (i : Nat) : Nat := 256 * i - a.toNat % 256

/-- The number of `page_program` calls of a `write` of `len` bytes at `a` (R202):
`1 + ceil((LEN - c0) / 256)` with `c0 = min(LEN, 256 - (ADDR mod 256))`. -/
def chunkCount (a : Word) (len : Nat) : Nat := 1 + (len - min len (256 - a.toNat % 256) + 255) / 256

/-- The frame of the `i`-th `page_program` call of a `write` of `d` at `a`: each byte at its own address (R202). -/
def chunkFrame (a : Word) (d : Bytes) (i : Nat) : Bytes :=
  [opcPp] ++ addrBytes (BitVec.ofNat 24 (a.toNat + chunkStart a i)) ++
    (d.drop (chunkStart a i)).take (chunkStart a (i + 1) - chunkStart a i)

/-- The latch as D0 shows it in status register 1 (R99). -/
def latchByte (wel : Bool) : Byte := if wel then 0x02#8 else 0x00#8

/-- The port uses of a wait that makes `limit` polls, all busy, and times out (R165, R167). -/
def timeoutBus (p : Params) (limit : Word) : List PortReq := pollBus p (limit.toNat - 1) ++ statusBus p

/-- A wait of a device that answers busy `b` times succeeds: no limit is set, or it is greater than `b` (R165, R167). -/
def waitEnds (limit : Word) (b : Nat) : Prop := limit = 0#32 ∨ b < limit.toNat

/-! ### The range checks -/

/-- The check of R151, as the rule writes it. -/
def rangeOk (valid : Bool) (size a n : Word) : Prop :=
  valid = true ∧ n ≠ 0#32 ∧ a.toNat / 256 < size.toNat ∧ (a.toNat + n.toNat) / 256 ≤ size.toNat

/-- When an operation's own check fails before any bus event: `read` and `write` (R151), `erase` (R227 S1),
`sector_erase` (R216 S1), `block_erase_64k` (R219 S1), `erase_all` (R229 S1). -/
def rangeFails (s : State) (op : HostOp) (a l : Word) : Prop :=
  ((op = .read ∨ op = .write) ∧ ¬ rangeOk s.valid s.size a l) ∨
  (op = .erase ∧ (l.toNat ≤ a.toNat ∨ s.size.toNat * 256 < l.toNat)) ∨
  (op = .sectorErase ∧ s.size.toNat / 16 ≤ a.toNat / 4096) ∨
  (op = .blockErase64k ∧ s.size.toNat / 256 ≤ a.toNat / 65536) ∨
  (op = .eraseAll ∧ s.valid = false)

end Sys2Proof.Machine
end

