-- ==== Sys2Proof/Certificates/Slice0/Obligations.lean ====
section
/-! DEFINITION. The statements for the provers: encodings, reset, invariants that every step keeps, what each wire
instruction does, and what each host operation does from its acceptance to its `Done`. -/

open Sys2Proof Sys2Proof.Machine

/-! ### Encodings and the step -/

/-- Decode and encode agree: every well-formed instruction, with every operand, is read back from its encoding. -/
def Obligations.DecodeReadsBackEncode : Prop := ∀ i : Instr, i.wf = true → decode (encode i) = .ok i

/-- Every frame and every command word has one meaning: what decodes to an instruction is that instruction's encoding. -/
def Obligations.EncodeWritesBackDecode : Prop := ∀ (p : Packet) (i : Instr), decode p = .ok i → encode i = p

/-- R112, R127: a frame whose first byte is none of the twelve opcodes is refused by name. -/
def Obligations.UnknownOpcodeIsRefused : Prop :=
  ∀ (op : Byte) (rest : Bytes),
    op ∉ [0x06#8, 0x04#8, 0x50#8, 0x05#8, 0x35#8, 0x9F#8, 0x03#8, 0x02#8, 0x20#8, 0x52#8, 0xD8#8, 0xC7#8] →
    decodeFrame (op :: rest) = .error (.unknownOpcode op)

/-- Words written out from the encodings of R113 to R124 and of 95_test_vectors.md decode to their instructions. -/
def Obligations.WordsFromTheSpecDecode : Prop :=
  decode (.frame [0x06#8]) = .ok .wren ∧
  decode (.frame [0x05#8, 0x00#8]) = .ok .rdsr1 ∧
  decode (.frame [0x9F#8, 0x00#8, 0x00#8, 0x00#8]) = .ok .jedecid ∧
  decode (.frame [0x03#8, 0x00#8, 0x01#8, 0x00#8, 0x00#8, 0x00#8]) = .ok (.dataRead 0x000100#24 6#32) ∧
  decode (.frame [0x02#8, 0x00#8, 0x00#8, 0xFA#8, 0x11#8, 0x22#8, 0x33#8, 0x44#8, 0x55#8, 0x66#8]) =
    .ok (.pp 0x0000FA#24 [0x11#8, 0x22#8, 0x33#8, 0x44#8, 0x55#8, 0x66#8]) ∧
  decode (.frame [0x20#8, 0x01#8, 0x20#8, 0x00#8]) = .ok (.se 0x012000#24) ∧
  decode (.frame [0xD8#8, 0x01#8, 0x00#8, 0x00#8]) = .ok (.be64 0x010000#24) ∧
  decode (.command 0xD00012ABC00000000#68 []) = .ok (.sectorErase 0x00012ABC#32 0#32 []) ∧
  decode (.command 0x10000000000000104#68 []) = .ok (.read 0#32 260#32 [])

/-- A step performs the frame that stands on the transfer port: it is `exec` of the decoded instruction, the port being
free again. That a frame is presented in one step and performed in another is the model's reading (log 1); that it is
performed in the very next step, so that every transfer returns, is the model's choice (log 33): neither R9 nor R38 says
so. -/
def Obligations.StepPerformsTheFrame : Prop :=
  ∀ (s : State) (b : Bytes) (i : Instr), s.resets = [] → s.port = some (.xfer b) → decodeFrame b = .ok i →
    step s = exec i { s with port := none }

/-- A step in IDLE takes the host's next command: it is `exec` of the decoded operation, the command being taken. -/
def Obligations.StepTakesTheCommand : Prop :=
  ∀ (s : State) (w : BitVec 68) (d : Bytes) (more : List HostReq), s.Quiet → s.host = .cmd w d :: more →
    step s = exec (decodeCommand w d) { s with host := more }

/-! ### Reset -/

/-- R55, R280, R282: the values that the spec gives for reset; and the block then waits in IDLE. (The values of the
other registers in `State.reset` are the model's choice, log 3 and log 4: nothing is said of them.) -/
def Obligations.ResetStateIsAsTheTableSays : Prop :=
  State.reset.ph = [] ∧ State.reset.port = none ∧ State.reset.valid = false ∧ State.reset.model = 0xF#4 ∧
  State.reset.size = 0#32 ∧ State.reset.pollLimit = 0#32 ∧ State.reset.trace = [] ∧ step State.reset = .next State.reset

/-- R55, R281: the `Reset` event, at any time: the table's values at once, whatever was running is gone without a
`Done`, nothing is sent; the host and the parameters are untouched, and so is the chip, but for an abandoned frame of
which D0 saw some first part. (That D0 takes that part as a whole frame, and that an unknown chip uses up no answer, is
the model's choice, log 13, where R281 leaves it unspecified; that the abandoned request leaves no event is log 31.) -/
def Obligations.ResetEventActsAtAnyTime : Prop :=
  ∀ (s : State) (later : List Nat), s.resets = 0 :: later → ∃ t, step s = .next t ∧
    t.ph = [] ∧ t.port = none ∧ t.valid = false ∧ t.model = 0xF#4 ∧ t.size = 0#32 ∧ t.pollLimit = 0#32 ∧
    t.trace = s.trace ++ [.reset] ∧ t.host = s.host ∧ t.resets = later ∧ t.params = s.params ∧
    ((∀ req, s.port ≠ some (.xfer req)) → t.chip = s.chip) ∧
    (∀ req d, s.port = some (.xfer req) → s.chip = .d0 d → ∃ m, t.chip = .d0 (d.respond (req.take m)).2) ∧
    (∀ answers, s.chip = .unknown answers → t.chip = s.chip)

/-! ### Invariants -/

/-- At reset every invariant below holds. (That `ID_TABLE` is at reset the default table, which meets R183, is the model's
choice, log 14; `ChipOk` and `HostOk` hold there because the chip is unknown and the host has asked nothing, log 9 and
log 2.) -/
def Obligations.InvariantsHoldAtReset : Prop :=
  State.reset.params.idTable.ok = true ∧ State.reset.HandleOk ∧ State.reset.PhaseOk ∧ State.reset.FramesOk ∧
  State.reset.HostOk ∧ State.reset.BracketOk ∧ State.reset.ChipOk

/-- R41: `VALID`, `MODEL` and `SIZE` agree with each other and with `ID_TABLE`, and every step keeps it so. -/
def Obligations.HandleStaysConsistent : Prop :=
  ∀ s t : State, s.params.idTable.ok = true → s.HandleOk → step s = .next t → t.HandleOk ∧ t.params = s.params

/-- R36, R37, R38: `PH` holds a chain of calls, each caller at the step after its call, with a port in use only as the
routine on top asked, and every step keeps it so. -/
def Obligations.PhaseStackStaysLegal : Prop := ∀ s t : State, s.PhaseOk → step s = .next t → t.PhaseOk

/-- R36: a chain of calls has at most four records. -/
def Obligations.PhaseStackIsAtMostFourDeep : Prop := ∀ l : List Record, legalStack l = true → l.length ≤ 4

/-- R127, R195, R262: with a legal phase register, and a host that keeps its contract, the machine never stops, every
frame it sends is a well-formed one of the eleven opcodes, and every step keeps all of this so. -/
def Obligations.MachineNeverStopsAndSendsGoodFrames : Prop :=
  ∀ s : State, s.PhaseOk → s.FramesOk → s.HostOk →
    ∃ t, step s = .next t ∧ t.PhaseOk ∧ t.FramesOk ∧ t.HostOk

/-- A frame that the block may send starts with one of the eleven opcodes of R127, and 0x52 is not among them. -/
def Obligations.SentFramesStartWithElevenOpcodes : Prop :=
  ∀ b : Bytes, blockFrame b = true →
    ∃ op rest, b = op :: rest ∧
      op ∈ [0x02#8, 0x03#8, 0x04#8, 0x05#8, 0x06#8, 0x20#8, 0x35#8, 0x50#8, 0x9F#8, 0xC7#8, 0xD8#8]

/-- R172, R291: every program or erase frame directly follows a write-enable frame, with only delays between, and every
step keeps it so. -/
def Obligations.MutatingFramesStayBracketed : Prop :=
  ∀ s t : State, s.PhaseOk → s.BracketOk → step s = .next t → t.BracketOk

/-- R98: the attached device stays one that the rule allows; its memory keeps the canonical form. -/
def Obligations.DeviceMemoryStaysCanonical : Prop := ∀ s t : State, s.ChipOk → step s = .next t → t.ChipOk

/-- R285: `VALID`, `MODEL` and `SIZE` change only by a `mount` or by `Reset`. -/
def Obligations.OnlyMountAndResetChangeTheHandle : Prop :=
  ∀ s t : State, step s = .next t → s.resets.head? ≠ some 0 → (∀ k rest, s.ph ≠ ⟨.host .mount, k⟩ :: rest) →
    t.valid = s.valid ∧ t.model = s.model ∧ t.size = s.size

/-- R44: `POLL_LIMIT` changes only by a `Cfg` that the host makes in IDLE, or by `Reset`. -/
def Obligations.OnlyCfgAndResetChangeThePollLimit : Prop :=
  ∀ s t : State, step s = .next t → s.resets.head? ≠ some 0 → t.pollLimit ≠ s.pollLimit →
    s.Idle ∧ ∃ v more, s.host = .cfg v :: more ∧ t.pollLimit = v ∧ t.host = more ∧ t.trace = s.trace ++ [.cfg v]

/-- R38, R262: while an operation runs the host port accepts nothing. -/
def Obligations.HostWaitsWhileAnOperationRuns : Prop :=
  ∀ s t : State, step s = .next t → ¬ s.Idle → t.host = s.host ∧ t.regOut = s.regOut

/-- R38, R83: the trace only grows, and one step adds at most one event (R310), so at most one
`XFER` or `DELAY`. -/
def Obligations.EachStepHasAtMostOneBusEvent : Prop :=
  ∀ s t : State, step s = .next t →
    ∃ evs, t.trace = s.trace ++ evs ∧ evs.length ≤ 1 ∧ (evs.filter Event.isBus).length ≤ 1

/-! ### The wire instructions -/

/-- R113, R114, R115: a gate frame is one transaction of one byte; nothing else of the block changes, and no byte of
flash memory. -/
def Obligations.GateFramesOnlySendTheirOpcode : Prop :=
  ∀ (s : State) (i : Instr) (op : Byte), (i, op) ∈ [(Instr.wren, 0x06#8), (.wrdi, 0x04#8), (.vsrwe, 0x50#8)] →
    (s.response [op]).length = 1 ∧
    ∃ t, exec i s = .next t ∧
      t = { s with chip := s.chip.after [op], free := s.free + 1, trace := s.trace ++ [.xfer [op] (s.response [op])] } ∧
      ∀ a, t.flashByte a = s.flashByte a

/-- R116, R117: a status frame captures byte 1 of its two-byte answer; nothing else of the block changes, and no byte of
flash memory. -/
def Obligations.StatusFramesCaptureByteOne : Prop :=
  ∀ s : State,
    (s.response [0x05#8, 0x00#8]).length = 2 ∧ (s.response [0x35#8, 0x00#8]).length = 2 ∧
    (∃ t, exec .rdsr1 s = .next t ∧
      t = { s with chip := s.chip.after [0x05#8, 0x00#8], free := s.free + 1,
                   sr1 := (s.response [0x05#8, 0x00#8]).getD 1 0#8,
                   trace := s.trace ++ [.xfer [0x05#8, 0x00#8] (s.response [0x05#8, 0x00#8])] } ∧
      ∀ a, t.flashByte a = s.flashByte a) ∧
    (∃ t, exec .rdsr2 s = .next t ∧
      t = { s with chip := s.chip.after [0x35#8, 0x00#8], free := s.free + 1,
                   sr2 := (s.response [0x35#8, 0x00#8]).getD 1 0#8,
                   trace := s.trace ++ [.xfer [0x35#8, 0x00#8] (s.response [0x35#8, 0x00#8])] } ∧
      ∀ a, t.flashByte a = s.flashByte a)

/-- R118: the identification frame captures its four-byte answer in `JEDEC`, first byte uppermost; nothing else of the
block changes, and no byte of flash memory. -/
def Obligations.JedecFrameCapturesFourBytes : Prop :=
  ∀ s : State, ∃ b0 b1 b2 b3 : Byte,
    s.response [0x9F#8, 0x00#8, 0x00#8, 0x00#8] = [b0, b1, b2, b3] ∧
    ∃ t, exec .jedecid s = .next t ∧
      t = { s with chip := s.chip.after [0x9F#8, 0x00#8, 0x00#8, 0x00#8], free := s.free + 1,
                   jedec := b0 ++ b1 ++ b2 ++ b3,
                   trace := s.trace ++ [.xfer [0x9F#8, 0x00#8, 0x00#8, 0x00#8] [b0, b1, b2, b3]] } ∧
      ∀ a, t.flashByte a = s.flashByte a

/-- R119: a data-read frame is the first `l` bytes of opcode, address and fill, its answer is as long and goes whole into
`RBUF`; nothing else of the block changes, and no byte of flash memory. A length of 0 is no frame and stops. -/
def Obligations.DataReadFrameFillsTheReadBuffer : Prop :=
  ∀ (s : State) (a : Addr24) (l : Word),
    (l = 0#32 → exec (.dataRead a l) s = .fault .illegalFrame) ∧
    (l ≠ 0#32 → ∃ req, req = ([0x03#8, a.extractLsb' 16 8, a.extractLsb' 8 8, a.extractLsb' 0 8] ++
        List.replicate (max l.toNat 4 - 4) 0x00#8).take l.toNat ∧
      (s.response req).length = l.toNat ∧
      ∃ t, exec (.dataRead a l) s = .next t ∧
        t = { s with chip := s.chip.after req, free := s.free + 1, rbuf := s.response req,
                     trace := s.trace ++ [.xfer req (s.response req)] } ∧
        ∀ x, t.flashByte x = s.flashByte x)

/-- R120: a page-program frame is opcode, address and payload; of the block only the frame buffer changes, whose content
is unspecified after the transfer (R35). -/
def Obligations.PageProgramFrameCarriesItsPayload : Prop :=
  ∀ (s : State) (a : Addr24) (d : Bytes), ∃ req,
    req = [0x02#8, a.extractLsb' 16 8, a.extractLsb' 8 8, a.extractLsb' 0 8] ++ d ∧
    ∃ t, exec (.pp a d) s = .next t ∧
      t = { s with chip := s.chip.after req, free := s.free + 1, fb := t.fb,
                   trace := s.trace ++ [.xfer req (s.response req)] } ∧ t.fb.length = 260

/-- R121, R123, R124: the erase frames are the opcode and the masked address, the chip erase the opcode alone; nothing
else of the block changes. -/
def Obligations.EraseFramesCarryMaskedAddresses : Prop :=
  ∀ (s : State) (a : Addr24) (i : Instr) (req : Bytes),
    (i, req) ∈ [(Instr.se a, [0x20#8] ++ addrBytes (a &&& 0xFFF000#24)),
                (.be64 a, [0xD8#8] ++ addrBytes (a &&& 0xFF0000#24)), (.ce, [0xC7#8])] →
    ∃ t, exec i s = .next t ∧
      t = { s with chip := s.chip.after req, free := s.free + 1, trace := s.trace ++ [.xfer req (s.response req)] }

/-- R122, R224: the 32K block erase is never transmitted: the operation ends with `Unimplemented` and no bus event.
(That the wire row ends so is the model's reading, log 15.) Registers the rule gives no value after `Done` keep theirs
(the model's choice, log 7). -/
def Obligations.BlockErase32kFrameIsNeverSent : Prop :=
  ∀ (s : State) (a : Addr24), ∃ t, exec (.be32 a) s = .next t ∧
    t = { s with ph := [], port := none, opr := t.opr, free := t.free, result := 0xA#4, count := s.cnt,
                 trace := s.trace ++ [.done false .unimplemented s.cnt []] }

/-! ### The reference device -/

/-- R99, R100: on a D0 that is ready the write-enable frame sets the latch, the write-disable frame clears it, the
volatile one changes nothing, and the identification frame gets the producer id and the device id; on a busy one the
gates change nothing. A status read answers latch and busy, busy or not, and counts the busy answers down. -/
def Obligations.DeviceLatchAndStatus : Prop :=
  ∀ (s : State) (d : Device), s.chip = .d0 d →
    (∃ t, exec .wren s = .next t ∧ t.chip = .d0 (if d.bsy = 0 then { d with wel := true } else d)) ∧
    (∃ t, exec .wrdi s = .next t ∧ t.chip = .d0 (if d.bsy = 0 then { d with wel := false } else d)) ∧
    (∃ t, exec .vsrwe s = .next t ∧ t.chip = .d0 d) ∧
    (∃ t, exec .rdsr1 s = .next t ∧ t.chip = .d0 { d with bsy := d.bsy - 1 } ∧
      t.trace = s.trace ++ [.xfer [0x05#8, 0x00#8] [0xFF#8, t.sr1]] ∧
      t.sr1.getLsbD 0 = decide (d.bsy ≠ 0) ∧ t.sr1.getLsbD 1 = d.wel ∧ ∀ j, 2 ≤ j → t.sr1.getLsbD j = false) ∧
    (∃ t, exec .rdsr2 s = .next t ∧ t.chip = .d0 d ∧ t.sr2 = 0x00#8 ∧
      t.trace = s.trace ++ [.xfer [0x35#8, 0x00#8] [0xFF#8, 0x00#8]]) ∧
    (d.bsy = 0 → ∃ t, exec .jedecid s = .next t ∧ t.chip = .d0 d ∧
      t.trace = s.trace ++ [.xfer [0x9F#8, 0x00#8, 0x00#8, 0x00#8] [0xFF#8, 0xEF#8, d.idh, d.idl]])

/-- R93, R101: on a ready D0 with the latch set a page-program frame makes each byte it addresses, wrapping in its page,
the AND of old and new, and leaves every other byte; the latch is cleared and the device goes busy. With the latch clear,
or with no payload, the frame is ignored. -/
def Obligations.DeviceProgramsWithinThePage : Prop :=
  ∀ (s : State) (d : Device) (a : Addr24) (v : Bytes),
    s.chip = .d0 d → d.wf = true → d.bsy = 0 → v.length ≤ 256 →
    (d.wel = true → v ≠ [] → ∃ t m, exec (.pp a v) s = .next t ∧
      t.chip = .d0 { d with mem := m, wel := false, bsy := d.k } ∧
      (∀ (i : Nat) (hi : i < v.length), ∀ x, x = (a.toNat % d.cap - a.toNat % d.cap % 256) + (a.toNat % d.cap + i) % 256 →
        m.read x = d.mem.read x &&& v[i]) ∧
      (∀ x, (∀ i, i < v.length → x ≠ (a.toNat % d.cap - a.toNat % d.cap % 256) + (a.toNat % d.cap + i) % 256) →
        m.read x = d.mem.read x)) ∧
    (d.wel = false ∨ v = [] → ∃ t, exec (.pp a v) s = .next t ∧ t.chip = .d0 d)

/-- R102: on a ready D0 with the latch set the erase frames set their sector, block or the whole array to 0xFF and leave
every other byte; the latch is cleared and the device goes busy. A 32K erase frame, which the block never sends, is
ignored. -/
def Obligations.DeviceErasesItsUnit : Prop :=
  ∀ (s : State) (d : Device) (a : Addr24), s.chip = .d0 d → d.bsy = 0 → d.wel = true →
    (∃ t m, exec (.se a) s = .next t ∧ t.chip = .d0 { d with mem := m, wel := false, bsy := d.k } ∧
      ∀ x, m.read x = if (sectorMask a).toNat % d.cap / 4096 = x / 4096 then 0xFF#8 else d.mem.read x) ∧
    (∃ t m, exec (.be64 a) s = .next t ∧ t.chip = .d0 { d with mem := m, wel := false, bsy := d.k } ∧
      ∀ x, m.read x = if (block64Mask a).toNat % d.cap / 65536 = x / 65536 then 0xFF#8 else d.mem.read x) ∧
    (∃ t m, exec .ce s = .next t ∧ t.chip = .d0 { d with mem := m, wel := false, bsy := d.k } ∧
      ∀ x, m.read x = 0xFF#8) ∧
    (∀ rest, (d.respond (0x52#8 :: rest)).2 = d)

/-- R98, R101, R102: a busy D0 ignores every frame but a status read and answers artifacts; a ready D0 with the latch
clear ignores every program and erase frame. -/
def Obligations.DeviceIgnoresFrames : Prop :=
  ∀ (s : State) (d : Device) (i : Instr) (req : Bytes), s.chip = .d0 d → encode i = .frame req → i.wf = true →
    (∀ a, i ≠ .be32 a) → i ≠ .rdsr1 → i ≠ .rdsr2 → (d.bsy ≠ 0 ∨ (d.wel = false ∧ mutatingFrame req = true)) →
    ∃ t, exec i s = .next t ∧ t.chip = .d0 d ∧ t.trace = s.trace ++ [.xfer req (List.replicate req.length 0xFF#8)]

/-! ### Ending an operation -/

/-- R247: `raise` from any state: nothing stays outstanding, `PH` is emptied, `RESULT` and `COUNT` are written, `Done`
is emitted with no data; nothing else changes but the operation latch, which is unspecified outside an operation
(R33). Registers the rule gives no value after `Done` keep theirs (the model's choice, log 7). -/
def Obligations.RaiseEndsTheOperation : Prop :=
  ∀ (s : State) (c : Cause), ∃ o, s.raise c =
    { s with ph := [], port := none, opr := o, free := s.free + 1, result := c.code ++ 0#1, count := s.cnt,
             trace := s.trace ++ [.done false c s.cnt []] }

/-- R38: acceptance in IDLE latches the operands, clears `CNT` and `RBUF`, and starts the operation's routine at S1. -/
def Obligations.AcceptanceStartsTheRoutine : Prop :=
  ∀ (s : State) (op : HostOp) (a l : Word) (d : Bytes), s.Idle → s.Accepts op → wfCmdData op l d = true →
    exec (op.instr a l d) s = .next
      { s with opr := op.code, addr := a, len := l, cnt := 0#32, wbuf := d, rbuf := [], ph := [⟨.host op, 1⟩],
               trace := s.trace ++ [.cmd op.code a l d] }

/-- R133: with `EXPOSE_INTERNAL` false an internal operation is refused: no bus event, no state that outlives the
operation but `RESULT` and `COUNT`. `Cmd` is one step and `Done` the next (R310; the record between them is the model's
own, log 32). Registers the rule gives no value after `Done` keep theirs (the model's choice, log 7). -/
def Obligations.InternalOperationIsRefused : Prop :=
  ∀ (s t : State) (op : HostOp) (a l : Word) (d : Bytes), s.Idle → op.internal = true → s.params.exposeInternal = false →
    wfCmdData op l d = true →
    t = { s with opr := op.code, addr := a, len := l, cnt := 0#32, wbuf := d, rbuf := [], ph := [⟨.refusal, 1⟩],
                 trace := s.trace ++ [.cmd op.code a l d] } →
    exec (op.instr a l d) s = .next t ∧
    (s.resets = [] → ∃ u, step t = .next u ∧
      u = { s with addr := a, len := l, cnt := 0#32, wbuf := d, rbuf := [], opr := u.opr, free := u.free,
                   result := 0xC#4, count := 0#32,
                   trace := s.trace ++ [.cmd op.code a l d, .done false .refused 0#32 []] })

/-- R132, R262: a `Cmd` while an operation runs, or with another amount of data than `len`, is no move of the host: the
machine stops by name. -/
def Obligations.BrokenHostContractStops : Prop :=
  ∀ (s : State) (op : HostOp) (a l : Word) (d : Bytes),
    (¬ s.Idle → exec (op.instr a l d) s = .fault .hostNotIdle) ∧
    (s.Idle → (op = .write ∨ op = .pageProgram) → d.length ≠ l.toNat →
      exec (op.instr a l d) s = .fault .malformedCommand)

/-- R44: `Cfg(v)` in IDLE writes `POLL_LIMIT` and does nothing else. -/
def Obligations.CfgWritesThePollLimit : Prop :=
  ∀ (s : State) (v : Word) (more : List HostReq), s.Quiet → s.host = .cfg v :: more →
    step s = .next { s with host := more, pollLimit := v, trace := s.trace ++ [.cfg v] }

/-- R40: a register read in IDLE answers the register of that number and changes no register. (The widening with zeros
is the model's choice, log 19.) -/
def Obligations.RegisterReadAnswersTheNumber : Prop :=
  ∀ (s : State) (i : BitVec 4) (more : List HostReq), s.Quiet → s.host = .readReg i :: more →
    ∃ v t, step s = .next t ∧ t = { s with host := more, regOut := some (i, v), free := t.free } ∧
      (i = 0#4 → v = if s.valid then 1#32 else 0#32) ∧ (i = 1#4 → v.toNat = s.model.toNat) ∧ (i = 2#4 → v = s.size) ∧
      (i = 3#4 → v = s.pollLimit) ∧ (i = 4#4 → v.toNat = s.sr1.toNat) ∧ (i = 5#4 → v.toNat = s.sr2.toNat) ∧
      (i = 6#4 → v = s.jedec) ∧ (i = 7#4 → v.toNat = s.result.toNat) ∧ (i = 8#4 → v = s.count)

/-! ### The validator and the clip -/

/-- R151, R155: the check passes exactly if the handle is set, the length is not 0, the start page is below the capacity
and the end page, of the sum that does not wrap, is not above it; so a valid range starts inside the chip and ends at most
255 bytes beyond it. -/
def Obligations.RangeCheckMakesTheFourTests : Prop :=
  ∀ (s : State) (a n : Word),
    (s.paramsValid a n = true ↔ s.valid = true ∧ n ≠ 0#32 ∧ a.toNat / 256 < s.size.toNat ∧
      (a.toNat + n.toNat) / 256 ≤ s.size.toNat) ∧
    (s.paramsValid a n = true → 1 ≤ n.toNat ∧ a.toNat < s.size.toNat * 256 ∧
      a.toNat + n.toNat ≤ s.size.toNat * 256 + 255)

/-- R192: the payload of one frame is `min(N, 256 - (CUR mod 256))`, and the frame four bytes longer; the payload is at
least 1 if `N` is, at most 256, and never crosses the page. -/
def Obligations.ClipStaysInThePage : Prop :=
  ∀ n cur : Word, (clip n cur).toNat = min n.toNat (256 - cur.toNat % 256) ∧ (1 ≤ n.toNat → 1 ≤ (clip n cur).toNat) ∧
    (clip n cur).toNat ≤ 256 ∧ cur.toNat % 256 + (clip n cur).toNat ≤ 256 ∧
    ∀ s : State, s.p = clip n cur → s.off.toNat + s.p.toNat ≤ s.wbuf.length →
      s.programFrame.length = (clip n cur).toNat + 4

/-! ### Host operations without a wait -/

/-- R152: `check_param` ends with success exactly when R151's check holds, else with `ParamRange`; no bus event, no
register written but `RESULT` and `COUNT`. Registers the rule gives no value after `Done` keep theirs (the model's
choice, log 7). -/
def Obligations.CheckParamAnswersTheCheck : Prop :=
  ∀ (s : State) (a l : Word) (d : Bytes), s.Quiet → s.Accepts .checkParam →
    ∃ t, exec (.checkParam a l d) s = .next t ∧ Reaches t (fun u =>
      (rangeOk s.valid s.size a l →
        u = { s with addr := a, len := l, cnt := 0#32, wbuf := d, rbuf := [], opr := u.opr, free := u.free,
                     result := 0x1#4, count := 0#32,
                     trace := s.trace ++ [.cmd 0x5#4 a l d, .done true .none 0#32 []] }) ∧
      (¬ rangeOk s.valid s.size a l →
        u = { s with addr := a, len := l, cnt := 0#32, wbuf := d, rbuf := [], opr := u.opr, free := u.free,
                     result := 0x2#4, count := 0#32,
                     trace := s.trace ++ [.cmd 0x5#4 a l d, .done false .paramRange 0#32 []] }))

/-- R164: `read_status` makes the four events of R163 and returns the two captured bytes. Registers the rule gives no
value after `Done` keep theirs (the model's choice, log 7). Transfers and delays return (the model's choice, log 33). -/
def Obligations.ReadStatusReturnsBothRegisters : Prop :=
  ∀ (s : State) (a l : Word) (d : Bytes), s.Quiet → s.Accepts .readStatus →
    ∃ t, exec (.readStatus a l d) s = .next t ∧ Reaches t (fun u => ∃ r1 r2 : Byte,
      r1 = (s.chip.answer s.free [0x05#8, 0x00#8]).getD 1 0#8 ∧
      r2 = ((s.chip.after [0x05#8, 0x00#8]).answer (s.free + 1) [0x35#8, 0x00#8]).getD 1 0#8 ∧
      u = { s with addr := a, len := l, cnt := 0#32, wbuf := d, rbuf := [r1, r2], sr1 := r1, sr2 := r2, opr := u.opr,
                   free := u.free, result := 0x1#4, count := 0#32, chip := s.chip.played (statusBus s.params),
                   trace := s.trace ++ [.cmd 0x6#4 a l d] ++ playBus s.chip s.free (statusBus s.params)
                     ++ [.done true .none 0#32 [r1, r2]] } ∧
      ∀ x, u.flashByte x = s.flashByte x)

/-- R169, R170, R171: the three gate operations make the three events of R168 with their opcode, and nothing else of
the block changes. Registers the rule gives no value after `Done` keep theirs (the model's choice, log 7). Transfers
and delays return (the model's choice, log 33). -/
def Obligations.GateOperationsSendTheirOpcode : Prop :=
  ∀ (s : State) (op : HostOp) (opc : Byte) (a l : Word) (d : Bytes), s.Quiet → s.Accepts op →
    (op, opc) ∈ [(HostOp.writeEnable, 0x06#8), (.writeDisable, 0x04#8), (.volatileStatusWriteEnable, 0x50#8)] →
    ∃ t, exec (op.instr a l d) s = .next t ∧ Reaches t (fun u =>
      u = { s with addr := a, len := l, cnt := 0#32, wbuf := d, rbuf := [], opr := u.opr, free := u.free,
                   result := 0x1#4, count := 0#32, chip := s.chip.after [opc],
                   trace := s.trace ++ [.cmd op.code a l d] ++ playBus s.chip s.free (gateBus s.params opc)
                     ++ [.done true .none 0#32 []] } ∧
      ∀ x, u.flashByte x = s.flashByte x)

/-- R182: `read_jedec` makes one transfer and no delay, captures the four bytes and returns them. Registers the rule
gives no value after `Done` keep theirs (the model's choice, log 7). Transfers and delays return (the model's choice,
log 33). -/
def Obligations.ReadJedecReturnsFourBytes : Prop :=
  ∀ (s : State) (a l : Word) (d : Bytes), s.Quiet → s.Accepts .readJedec →
    ∃ t, exec (.readJedec a l d) s = .next t ∧ Reaches t (fun u => ∃ b0 b1 b2 b3 : Byte,
      s.response [0x9F#8, 0x00#8, 0x00#8, 0x00#8] = [b0, b1, b2, b3] ∧
      u = { s with addr := a, len := l, cnt := 0#32, wbuf := d, rbuf := [b0, b1, b2, b3], jedec := b0 ++ b1 ++ b2 ++ b3,
                   opr := u.opr, free := u.free, result := 0x1#4, count := 0#32,
                   chip := s.chip.after [0x9F#8, 0x00#8, 0x00#8, 0x00#8],
                   trace := s.trace ++ [.cmd 0xB#4 a l d, .xfer [0x9F#8, 0x00#8, 0x00#8, 0x00#8] [b0, b1, b2, b3],
                     .done true .none 0#32 [b0, b1, b2, b3]] } ∧
      ∀ x, u.flashByte x = s.flashByte x)

/-- R184, R185: `mount` on a chip that answers the expected manufacturer and the id of a table entry sets the handle
to the first such entry, with one transfer and no delay. Registers the rule gives no value after `Done` keep theirs
(the model's choice, log 7). Transfers and delays return (the model's choice, log 33). -/
def Obligations.MountSetsTheHandle : Prop :=
  ∀ (s : State) (a l : Word) (d : Bytes) (b0 b2 b3 : Byte) (k pages : Nat), s.Quiet →
    s.response [0x9F#8, 0x00#8, 0x00#8, 0x00#8] = [b0, 0xEF#8, b2, b3] →
    s.params.idTable[k]? = some (b2 ++ b3, pages) → (∀ j e, j < k → s.params.idTable[j]? = some e → e.1 ≠ b2 ++ b3) →
    ∃ t, exec (.mount a l d) s = .next t ∧ Reaches t (fun u =>
      u = { s with addr := a, len := l, cnt := 0#32, wbuf := d, rbuf := [], jedec := b0 ++ 0xEF#8 ++ b2 ++ b3,
                   valid := true, model := BitVec.ofNat 4 k, size := BitVec.ofNat 32 pages,
                   opr := u.opr, free := u.free, result := 0x1#4, count := 0#32,
                   chip := s.chip.after [0x9F#8, 0x00#8, 0x00#8, 0x00#8],
                   trace := s.trace ++ [.cmd 0x0#4 a l d, .xfer [0x9F#8, 0x00#8, 0x00#8, 0x00#8] [b0, 0xEF#8, b2, b3],
                     .done true .none 0#32 []] } ∧
      ∀ x, u.flashByte x = s.flashByte x)

/-- R184, R185, R186: `mount` fails with `WrongManufacturer` whatever the device id, and with `UnidentifiedDevice` for
an id in no entry; both clear the handle and keep the answer in `JEDEC`. Registers the rule gives no value after
`Done` keep theirs (the model's choice, log 7). Transfers and delays return (the model's choice, log 33). -/
def Obligations.MountFailureClearsTheHandle : Prop :=
  ∀ (s : State) (a l : Word) (d : Bytes) (b0 b1 b2 b3 : Byte) (c : Cause), s.Quiet →
    s.response [0x9F#8, 0x00#8, 0x00#8, 0x00#8] = [b0, b1, b2, b3] →
    ((b1 ≠ 0xEF#8 ∧ c = .wrongManufacturer) ∨
      (b1 = 0xEF#8 ∧ (∀ e, e ∈ s.params.idTable → e.1 ≠ b2 ++ b3) ∧ c = .unidentifiedDevice)) →
    ∃ t, exec (.mount a l d) s = .next t ∧ Reaches t (fun u =>
      u = { s with addr := a, len := l, cnt := 0#32, wbuf := d, rbuf := [], jedec := b0 ++ b1 ++ b2 ++ b3,
                   valid := false, model := 0xF#4, size := 0#32,
                   opr := u.opr, free := u.free, result := c.code ++ 0#1, count := 0#32,
                   chip := s.chip.after [0x9F#8, 0x00#8, 0x00#8, 0x00#8],
                   trace := s.trace ++ [.cmd 0x0#4 a l d, .xfer [0x9F#8, 0x00#8, 0x00#8, 0x00#8] [b0, b1, b2, b3],
                     .done false c 0#32 []] } ∧
      ∀ x, u.flashByte x = s.flashByte x)

/-- R205: a valid `read` is one frame of `len` bytes, no delay and no wait, and returns the whole answer. On a ready
D0 the bytes from index 4 on are the flash bytes from `addr` on (R103). Registers the rule gives no value after `Done`
keep theirs (the model's choice, log 7). Transfers and delays return (the model's choice, log 33). -/
def Obligations.ReadReturnsTheWholeAnswer : Prop :=
  ∀ (s : State) (a l : Word) (d : Bytes) (req : Bytes), s.Quiet → rangeOk s.valid s.size a l →
    req = ([0x03#8] ++ addrBytes (a.setWidth 24) ++ List.replicate (max l.toNat 4 - 4) 0x00#8).take l.toNat →
    ∃ t, exec (.read a l d) s = .next t ∧ Reaches t (fun u =>
      u = { s with addr := a, len := l, cnt := 0#32, wbuf := d, rbuf := s.response req, opr := u.opr, free := u.free,
                   result := 0x1#4, count := 0#32, chip := s.chip.after req,
                   trace := s.trace ++ [.cmd 0x1#4 a l d, .xfer req (s.response req),
                     .done true .none 0#32 (s.response req)] } ∧
      u.rbuf.length = l.toNat ∧ (∀ x, u.flashByte x = s.flashByte x) ∧
      ∀ dev, s.chip = .d0 dev → dev.bsy = 0 → u.chip = s.chip ∧
        ∀ i, i + 4 < l.toNat → u.rbuf[i + 4]? = some (dev.mem.read (((a.setWidth 24).toNat % dev.cap + i) % dev.cap)))

/-- R200, R218, R228, R242: an operation whose own check fails ends with `ParamRange` and has no bus event; nothing
that outlives it changes but `RESULT` and `COUNT`. Registers the rule gives no value after `Done` keep theirs (the
model's choice, log 7). -/
def Obligations.FailedCheckSendsNothing : Prop :=
  ∀ (s : State) (op : HostOp) (a l : Word) (d : Bytes), s.Quiet → s.Accepts op → wfCmdData op l d = true →
    rangeFails s op a l →
    ∃ t, exec (op.instr a l d) s = .next t ∧ Reaches t (fun u =>
      u = { s with addr := a, len := l, cur := u.cur, cnt := 0#32, wbuf := d, rbuf := [], opr := u.opr, free := u.free,
                   result := 0x2#4, count := 0#32,
                   trace := s.trace ++ [.cmd op.code a l d, .done false .paramRange 0#32 []] })

/-- R224: `block_erase_32k` ends with `Unimplemented` and has no bus event; the operands play no part. Registers the
rule gives no value after `Done` keep theirs (the model's choice, log 7). -/
def Obligations.BlockErase32kIsUnimplemented : Prop :=
  ∀ (s : State) (a l : Word) (d : Bytes), s.Quiet → s.Accepts .blockErase32k →
    ∃ t, exec (.blockErase32k a l d) s = .next t ∧ Reaches t (fun u =>
      u = { s with addr := a, len := l, cnt := 0#32, wbuf := d, rbuf := [], opr := u.opr, free := u.free,
                   result := 0xA#4, count := 0#32,
                   trace := s.trace ++ [.cmd 0xF#4 a l d, .done false .unimplemented 0#32 []] })

/-! ### Host operations with a wait, on any chip that is ready at the first poll -/

/-- R165, R166: a chip that is ready at the first poll costs one `read_status` and no poll delay; only bit 0 of the
fresh `SR1` decides. Registers the rule gives no value after `Done` keep theirs (the model's choice, log 7). Transfers
and delays return (the model's choice, log 33). -/
def Obligations.WaitReturnsAtOnceOnAReadyChip : Prop :=
  ∀ (s : State) (a l : Word) (d : Bytes) (r1 r2 : Byte), s.Quiet → s.Accepts .waitUntilReady →
    r1 = (s.chip.answer s.free [0x05#8, 0x00#8]).getD 1 0#8 → r1.getLsbD 0 = false →
    r2 = ((s.chip.after [0x05#8, 0x00#8]).answer (s.free + 1) [0x35#8, 0x00#8]).getD 1 0#8 →
    ∃ t, exec (.waitUntilReady a l d) s = .next t ∧ Reaches t (fun u =>
      u = { s with addr := a, len := l, att := 1#32, cnt := 0#32, wbuf := d, rbuf := [], sr1 := r1, sr2 := r2,
                   opr := u.opr, free := u.free, result := 0x1#4, count := 0#32,
                   chip := s.chip.played (statusBus s.params),
                   trace := s.trace ++ [.cmd 0x7#4 a l d] ++ playBus s.chip s.free (statusBus s.params)
                     ++ [.done true .none 0#32 []] } ∧
      ∀ x, u.flashByte x = s.flashByte x)

/-- R191, R194: `page_program` on a chip that is ready at the first poll makes the eleven events of R191 in order,
with the clipped payload in one frame, and returns the payload count. Registers the rule gives no value after `Done`
keep theirs (the model's choice, log 7). Transfers and delays return (the model's choice, log 33). -/
def Obligations.PageProgramMakesItsElevenEvents : Prop :=
  ∀ (s : State) (a l : Word) (d : Bytes) (cnt : Nat) (f : Bytes), s.Quiet → s.Accepts .pageProgram → d.length = l.toNat →
    cnt = min l.toNat (256 - a.toNat % 256) → f = [0x02#8] ++ addrBytes (a.setWidth 24) ++ d.take cnt →
    ((s.chip.answer s.free [0x05#8, 0x00#8]).getD 1 0#8).getLsbD 0 = false →
    ∃ t, exec (.pageProgram a l d) s = .next t ∧ Reaches t (fun u =>
      u = { s with addr := a, len := l, cur := a, off := 0#32, n := l, p := BitVec.ofNat 32 cnt, att := 1#32,
                   cnt := BitVec.ofNat 32 cnt, wbuf := d, rbuf := [], fb := u.fb, sr1 := u.sr1, sr2 := u.sr2,
                   opr := u.opr, free := u.free, result := 0x1#4, count := BitVec.ofNat 32 cnt,
                   chip := s.chip.played (programBus s.params f),
                   trace := s.trace ++ [.cmd 0xC#4 a l d] ++ playBus s.chip s.free (programBus s.params f)
                     ++ [.done true .none (BitVec.ofNat 32 cnt) []] })

/-- R216, R217, R219, R220, R229: `sector_erase`, `block_erase_64k` and `erase_all`, their checks passed, on a chip
that is ready at the first poll make the eleven events of R216 in order, with their own frame. Registers the rule
gives no value after `Done` keep theirs (the model's choice, log 7). Transfers and delays return (the model's choice,
log 33). -/
def Obligations.EraseOperationsMakeTheirElevenEvents : Prop :=
  ∀ (s : State) (op : HostOp) (a l : Word) (d : Bytes) (f : Bytes), s.Quiet → s.Accepts op → ¬ rangeFails s op a l →
    ((op = .sectorErase ∧ f = [0x20#8] ++ addrBytes (a.setWidth 24 &&& 0xFFF000#24)) ∨
      (op = .blockErase64k ∧ f = [0xD8#8] ++ addrBytes (a.setWidth 24 &&& 0xFF0000#24)) ∨
      (op = .eraseAll ∧ f = [0xC7#8])) →
    ((((s.chip.after [0x06#8]).after f).answer (s.free + 2) [0x05#8, 0x00#8]).getD 1 0#8).getLsbD 0 = false →
    ∃ t, exec (op.instr a l d) s = .next t ∧ Reaches t (fun u =>
      u = { s with addr := a, len := l, cur := if op = .eraseAll then s.cur else a, att := 1#32, cnt := 0#32, wbuf := d,
                   rbuf := [], sr1 := u.sr1, sr2 := u.sr2, opr := u.opr, free := u.free, result := 0x1#4, count := 0#32,
                   chip := s.chip.played (eraseBus s.params f),
                   trace := s.trace ++ [.cmd op.code a l d] ++ playBus s.chip s.free (eraseBus s.params f)
                     ++ [.done true .none 0#32 []] })

/-! ### Waiting, on the reference device and against a chip that stays busy -/

/-- R165: on a D0 with `bsy` busy answers to come, and no limit or a greater one, `wait_until_ready` polls exactly
`bsy + 1` times, with a poll delay between, and succeeds. Registers the rule gives no value after `Done` keep theirs
(the model's choice, log 7). Transfers and delays return (the model's choice, log 33). -/
def Obligations.WaitPollsUntilTheDeviceIsReady : Prop :=
  ∀ (s : State) (a l : Word) (d : Bytes) (dev : Device), s.Quiet → s.Accepts .waitUntilReady → s.chip = .d0 dev →
    waitEnds s.pollLimit dev.bsy →
    ∃ t, exec (.waitUntilReady a l d) s = .next t ∧ Reaches t (fun u =>
      u = { s with addr := a, len := l, att := BitVec.ofNat 32 (min (dev.bsy + 1) (2 ^ 32 - 1)), cnt := 0#32, wbuf := d,
                   rbuf := [], sr1 := latchByte dev.wel, sr2 := 0x00#8, opr := u.opr, free := u.free, result := 0x1#4,
                   count := 0#32, chip := .d0 { dev with bsy := 0 },
                   trace := s.trace ++ [.cmd 0x7#4 a l d] ++
                     playBus s.chip s.free (pollBus s.params dev.bsy ++ statusBus s.params) ++ [.done true .none 0#32 []] })

/-- R165, R167, R204, R247: with a limit `L` that the busy answers reach, a wait makes exactly `L` polls and ends the
whole operation with `Timeout`, with no poll delay after the last and with `CNT` as its count, whatever called it. So
`wait_until_ready` and `page_program` end with count 0, the latter having sent nothing but status reads; and `write`
ends with the bytes that its completed calls sent: 0 in the first call, the first page's part in the second. Registers
the rule gives no value after `Done` keep theirs (the model's choice, log 7). Transfers and delays return (the model's
choice, log 33). -/
def Obligations.WaitTimesOutAtTheLimit : Prop :=
  -- the operation `wait_until_ready`
  (∀ (s : State) (a l : Word) (d : Bytes) (dev : Device), s.Quiet → s.Accepts .waitUntilReady → s.chip = .d0 dev →
    1 ≤ s.pollLimit.toNat → s.pollLimit.toNat ≤ dev.bsy →
    ∃ t, exec (.waitUntilReady a l d) s = .next t ∧ Reaches t (fun u =>
      u = { s with addr := a, len := l, att := s.pollLimit, cnt := 0#32, wbuf := d, rbuf := [],
                   sr1 := latchByte dev.wel ||| 0x01#8, sr2 := 0x00#8, opr := u.opr, free := u.free, result := 0x8#4,
                   count := 0#32, chip := .d0 { dev with bsy := dev.bsy - s.pollLimit.toNat },
                   trace := s.trace ++ [.cmd 0x7#4 a l d] ++ playBus s.chip s.free (timeoutBus s.params s.pollLimit) ++
                     [.done false .timeout 0#32 []] })) ∧
  -- the routine, called from any depth
  (∀ (s : State) (rest : List Record) (dev : Device), s.resets = [] → s.port = none →
    s.ph = ⟨.waitUntilReady, 1⟩ :: rest → s.chip = .d0 dev → 1 ≤ s.pollLimit.toNat → s.pollLimit.toNat ≤ dev.bsy →
    Reaches s (fun u =>
      u = { s with ph := [], att := s.pollLimit, sr1 := latchByte dev.wel ||| 0x01#8, sr2 := 0x00#8, opr := u.opr,
                   free := u.free, result := 0x8#4, count := s.cnt,
                   chip := .d0 { dev with bsy := dev.bsy - s.pollLimit.toNat },
                   trace := s.trace ++ playBus s.chip s.free (timeoutBus s.params s.pollLimit) ++
                     [.done false .timeout s.cnt []] })) ∧
  -- `page_program`, and `write` in its first call
  (∀ (s : State) (op : HostOp) (a l : Word) (d : Bytes) (dev : Device), s.Quiet → s.Accepts op → d.length = l.toNat →
    (op = .pageProgram ∨ (op = .write ∧ rangeOk s.valid s.size a l)) → s.chip = .d0 dev →
    1 ≤ s.pollLimit.toNat → s.pollLimit.toNat ≤ dev.bsy →
    ∃ t, exec (op.instr a l d) s = .next t ∧ Reaches t (fun u =>
      u.Idle ∧ u.result = 0x8#4 ∧ u.count = 0#32 ∧ u.chip = .d0 { dev with bsy := dev.bsy - s.pollLimit.toNat } ∧
      u.trace = s.trace ++ [.cmd op.code a l d] ++ playBus s.chip s.free (timeoutBus s.params s.pollLimit) ++
        [.done false .timeout 0#32 []])) ∧
  -- `write` in its second call
  (∀ (s : State) (a l : Word) (d : Bytes) (dev : Device) (c : Nat), s.Quiet → d.length = l.toNat →
    rangeOk s.valid s.size a l → s.chip = .d0 dev → dev.bsy < s.pollLimit.toNat → s.pollLimit.toNat ≤ dev.k →
    c = 256 - a.toNat % 256 → c < l.toNat →
    ∃ t, exec (.write a l d) s = .next t ∧ Reaches t (fun u =>
      u.Idle ∧ u.result = 0x8#4 ∧ u.count = BitVec.ofNat 32 c ∧
      u.trace = s.trace ++ [.cmd 0x2#4 a l d] ++
        playBus s.chip s.free (pollBus s.params dev.bsy ++ programBus s.params (chunkFrame a d 0) ++
          timeoutBus s.params s.pollLimit) ++ [.done false .timeout (BitVec.ofNat 32 c) []]))

/-- R167, R229, R244, R299: a `Timeout` inside `sector_erase`, `block_erase_64k`, `erase_all`, or any sector of
`erase`, leaves the write-enable and the erase frame sent and the closing write-disable unsent. Transfers and delays
return (the model's choice, log 33). -/
def Obligations.TimeoutLeavesTheEraseUnclosed : Prop :=
  -- from acceptance; in `erase` it strikes in the first sector
  (∀ (s : State) (op : HostOp) (a l : Word) (d : Bytes) (dev : Device) (f : Bytes), s.Quiet → s.Accepts op →
    s.chip = .d0 dev → dev.bsy = 0 → ¬ rangeFails s op a l →
    ((op = .sectorErase ∧ f = [0x20#8] ++ addrBytes (a.setWidth 24 &&& 0xFFF000#24)) ∨
      (op = .blockErase64k ∧ f = [0xD8#8] ++ addrBytes (a.setWidth 24 &&& 0xFF0000#24)) ∨
      (op = .eraseAll ∧ f = [0xC7#8]) ∨
      (op = .erase ∧ s.size.toNat % 16 = 0 ∧ f = [0x20#8] ++ addrBytes (a.setWidth 24 &&& 0xFFF000#24))) →
    1 ≤ s.pollLimit.toNat → s.pollLimit.toNat ≤ dev.k →
    ∃ t, exec (op.instr a l d) s = .next t ∧ Reaches t (fun u =>
      u.Idle ∧ u.result = 0x8#4 ∧ u.count = 0#32 ∧
      u.trace = s.trace ++ [.cmd op.code a l d] ++
        playBus s.chip s.free (gateBus s.params 0x06#8 ++ [.xfer f] ++ timeoutBus s.params s.pollLimit) ++
        [.done false .timeout 0#32 []])) ∧
  -- in the sector that the loop of `erase` is at
  (∀ (s : State) (dev : Device), s.resets = [] → s.port = none → s.ph = [⟨.host .erase, 3⟩] → s.chip = .d0 dev →
    dev.bsy = 0 → s.cur.toNat < s.len.toNat → s.cur.toNat / 4096 < s.size.toNat / 16 →
    1 ≤ s.pollLimit.toNat → s.pollLimit.toNat ≤ dev.k →
    Reaches s (fun u =>
      u.Idle ∧ u.result = 0x8#4 ∧ u.count = s.cnt ∧
      u.trace = s.trace ++
        playBus s.chip s.free (gateBus s.params 0x06#8 ++
          [.xfer ([0x20#8] ++ addrBytes (s.cur.setWidth 24 &&& 0xFFF000#24))] ++ timeoutBus s.params s.pollLimit) ++
        [.done false .timeout s.cnt []]))

/-- R256: with `POLL_LIMIT = 0` against a chip that stays busy, `wait_until_ready` is still running after any number of
steps. -/
def Obligations.WaitHangsOnABusyChip : Prop :=
  ∀ (n : Nat) (s : State) (a l : Word) (d : Bytes), s.Quiet → s.Accepts .waitUntilReady → s.pollLimit = 0#32 →
    s.chip = .unknown (List.replicate n [0xFF#8, 0x01#8]) →
    ∃ t, exec (.waitUntilReady a l d) s = .next t ∧ ∃ u, run n t = .next u ∧ u.ph ≠ [] ∧
      ∀ ok c k r, Event.done ok c k r ∉ u.trace.drop s.trace.length

/-! ### What the operations do to the reference device -/

/-- R191, R194, R101: `page_program` on D0, whose busy answers run out in time, programs exactly the clipped payload
at its address. Registers the rule gives no value after `Done` keep theirs (the model's choice, log 7). Transfers and
delays return (the model's choice, log 33). -/
def Obligations.PageProgramProgramsTheDevice : Prop :=
  ∀ (s : State) (a l : Word) (d : Bytes) (dev : Device) (cnt base : Nat), s.Quiet → s.Accepts .pageProgram →
    d.length = l.toNat → s.chip = .d0 dev → dev.wf = true → waitEnds s.pollLimit dev.bsy →
    cnt = min l.toNat (256 - a.toNat % 256) → base = (a.setWidth 24).toNat % dev.cap →
    ∃ t, exec (.pageProgram a l d) s = .next t ∧ Reaches t (fun u =>
      u = { s with addr := a, len := l, cur := a, off := 0#32, n := l, p := BitVec.ofNat 32 cnt, att := u.att,
                   cnt := BitVec.ofNat 32 cnt, wbuf := d, rbuf := [], fb := u.fb, sr1 := u.sr1, sr2 := u.sr2,
                   opr := u.opr, free := u.free, result := 0x1#4, count := BitVec.ofNat 32 cnt, chip := u.chip,
                   trace := u.trace } ∧
      ∃ m, u.chip = .d0 { dev with mem := m, wel := false, bsy := if cnt = 0 then 0 else dev.k } ∧
        (∀ i, i < cnt → m.read (base + i) = dev.mem.read (base + i) &&& d.getD i 0#8) ∧
        (∀ x, x < base ∨ base + cnt ≤ x → m.read x = dev.mem.read x))

/-- R201, R202: a valid `write` on D0 sends every byte of the data in exactly one page-program frame, at its own
address, and returns the whole length as its count; for a range inside the capacity and below 2^24 (no slack, no
dropped address bits) exactly those bytes of the array become the AND of old and new. Registers the rule gives no
value after `Done` keep theirs (the model's choice, log 7). Transfers and delays return (the model's choice, log 33). -/
def Obligations.WriteProgramsEveryByte : Prop :=
  ∀ (s : State) (a l : Word) (d : Bytes) (dev : Device), s.Quiet → d.length = l.toNat → rangeOk s.valid s.size a l →
    s.chip = .d0 dev → dev.wf = true → waitEnds s.pollLimit dev.bsy → waitEnds s.pollLimit dev.k →
    ∃ t, exec (.write a l d) s = .next t ∧ Reaches t (fun u =>
      u = { s with addr := a, len := l, cur := a + l, off := l, n := u.n, p := u.p, att := u.att, cnt := l, wbuf := d,
                   rbuf := [], fb := u.fb, sr1 := u.sr1, sr2 := u.sr2, opr := u.opr, free := u.free, result := 0x1#4,
                   count := l, chip := u.chip, trace := u.trace } ∧
      (∃ evs, u.trace = s.trace ++ evs ∧
        (framesOf evs).filter isPageProgram = (List.range (chunkCount a l.toNat)).map (chunkFrame a d) ∧
        (((framesOf evs).filter isPageProgram).map (List.drop 4)).flatten = d) ∧
      ∃ m, u.chip = .d0 { dev with mem := m, wel := false, bsy := dev.k } ∧
        (a.toNat + l.toNat ≤ dev.cap → a.toNat + l.toNat ≤ 2 ^ 24 →
          (∀ i, i < l.toNat → m.read (a.toNat + i) = dev.mem.read (a.toNat + i) &&& d.getD i 0#8) ∧
          (∀ x, x < a.toNat ∨ a.toNat + l.toNat ≤ x → m.read x = dev.mem.read x)))

/-- R216, R217, R219, R220, R229: on a ready D0 whose busy answers run out in time, the single erases set exactly
their sector, block or the whole array to 0xFF and leave the device ready. Registers the rule gives no value after
`Done` keep theirs (the model's choice, log 7). Transfers and delays return (the model's choice, log 33). -/
def Obligations.EraseOperationsEraseTheirUnit : Prop :=
  ∀ (s : State) (op : HostOp) (a l : Word) (d : Bytes) (dev : Device), s.Quiet → s.Accepts op → s.chip = .d0 dev →
    dev.bsy = 0 → waitEnds s.pollLimit dev.k → ¬ rangeFails s op a l →
    (op = .sectorErase ∨ op = .blockErase64k ∨ op = .eraseAll) →
    ∃ t, exec (op.instr a l d) s = .next t ∧ Reaches t (fun u =>
      u = { s with addr := a, len := l, cur := if op = .eraseAll then s.cur else a, att := u.att, cnt := 0#32, wbuf := d,
                   rbuf := [], sr1 := u.sr1, sr2 := u.sr2, opr := u.opr, free := u.free, result := 0x1#4, count := 0#32,
                   chip := u.chip, trace := u.trace } ∧
      ∃ m, u.chip = .d0 { dev with mem := m, wel := false, bsy := 0 } ∧
        (op = .sectorErase → ∀ x, m.read x =
          if (sectorMask (a.setWidth 24)).toNat % dev.cap / 4096 = x / 4096 then 0xFF#8 else dev.mem.read x) ∧
        (op = .blockErase64k → ∀ x, m.read x =
          if (block64Mask (a.setWidth 24)).toNat % dev.cap / 65536 = x / 65536 then 0xFF#8 else dev.mem.read x) ∧
        (op = .eraseAll → ∀ x, m.read x = 0xFF#8))

/-- R227, R228: a valid `erase` issues exactly `ceil((end - start) / 4096)` sector-erase frames, at the stride
addresses masked to sector alignment; on D0, for an end inside the capacity and at most 2^24 (no dropped address
bits), it erases exactly the sectors those addresses lie in. Registers the rule gives no value after `Done` keep
theirs (the model's choice, log 7). Transfers and delays return (the model's choice, log 33). -/
def Obligations.EraseRangeStridesOverTheSectors : Prop :=
  ∀ (s : State) (a e : Word) (d : Bytes) (dev : Device), s.Quiet → s.chip = .d0 dev → dev.bsy = 0 → dev.wf = true →
    waitEnds s.pollLimit dev.k → ¬ rangeFails s .erase a e → s.size.toNat % 16 = 0 → s.size.toNat ≤ 2 ^ 23 →
    ∃ t, exec (.erase a e d) s = .next t ∧ Reaches t (fun u =>
      u = { s with addr := a, len := e, cur := u.cur, att := u.att, cnt := 0#32, wbuf := d, rbuf := [], sr1 := u.sr1,
                   sr2 := u.sr2, opr := u.opr, free := u.free, result := 0x1#4, count := 0#32, chip := u.chip,
                   trace := u.trace } ∧
      u.cur.toNat = a.toNat + 4096 * ((e.toNat - a.toNat + 4095) / 4096) ∧
      (∃ evs, u.trace = s.trace ++ evs ∧
        (framesOf evs).filter isSectorErase =
          (List.range ((e.toNat - a.toNat + 4095) / 4096)).map
            (fun i => [0x20#8] ++ addrBytes (BitVec.ofNat 24 ((a.toNat + 4096 * i) / 4096 * 4096)))) ∧
      ∃ m, u.chip = .d0 { dev with mem := m, wel := false, bsy := 0 } ∧
        (e.toNat ≤ dev.cap → e.toNat ≤ 2 ^ 24 → ∀ x, m.read x =
          if a.toNat / 4096 ≤ x / 4096 ∧ x / 4096 < a.toNat / 4096 + (e.toNat - a.toNat + 4095) / 4096 then 0xFF#8
          else dev.mem.read x))

/-- R97, R208: a `write` into an erased range of D0, a `wait_until_ready`, and a `read` of four bytes more return the
written bytes: they are the data of the last `Done` from index 4 on. (That RBUF still holds that data after `Done` is
the model's choice, log 7.) Transfers and delays return (the model's choice, log 33). -/
def Obligations.WriteWaitReadReturnsTheData : Prop :=
  ∀ (s : State) (a l l4 : Word) (d : Bytes) (dev : Device), s.Quiet → s.params.exposeInternal = true →
    d.length = l.toNat → l4.toNat = l.toNat + 4 → rangeOk s.valid s.size a l → rangeOk s.valid s.size a l4 →
    s.chip = .d0 dev → dev.wf = true → waitEnds s.pollLimit dev.bsy → waitEnds s.pollLimit dev.k →
    a.toNat + l.toNat ≤ dev.cap → a.toNat + l.toNat ≤ 2 ^ 24 →
    (∀ i, i < l.toNat → dev.mem.read (a.toNat + i) = 0xFF#8) →
    s.host = [.cmd (commandWord .write a l) d, .cmd (commandWord .waitUntilReady 0#32 0#32) [],
              .cmd (commandWord .read a l4) []] →
    Reaches s (fun u => u.Idle ∧ u.host = [] ∧ u.result = 0x1#4 ∧
      ∃ rdata, u.trace.getLast? = some (.done true .none 0#32 rdata) ∧ rdata.drop 4 = d ∧ u.rbuf = rdata)
end

