-- ==== Sys2Proof/Laws/Codec.lean ====
section
/-! SUPPORT. Small laws of the encodings: address bytes, operation codes, command words, lengths of frames. -/

namespace Sys2Proof

theorem joinAddr_extract (a : Addr24) :
    joinAddr (a.extractLsb' 16 8) (a.extractLsb' 8 8) (a.extractLsb' 0 8) = a := by
  unfold joinAddr
  ext i hi
  simp only [BitVec.getElem_append, BitVec.getElem_extractLsb']
  split
  · simp [BitVec.getLsbD_eq_getElem hi]
  · split
    · rw [← BitVec.getLsbD_eq_getElem hi]; congr 1; omega
    · rw [← BitVec.getLsbD_eq_getElem hi]; congr 1; omega

/-- The high part of a concatenation, as a slice. -/
theorem extract_append_high {m n w : Nat} (x : BitVec m) (y : BitVec n) (k : Nat) :
    (x ++ y).extractLsb' (n + k) w = x.extractLsb' k w := by
  ext i hi
  simp [BitVec.getLsbD_append, BitVec.getElem_extractLsb', show ¬ (n + k + i < n) by omega,
    show n + k + i - n = k + i by omega]

/-- The low part of a concatenation, as a slice. -/
theorem extract_append_low {m n w : Nat} (x : BitVec m) (y : BitVec n) (k : Nat) (h : k + w ≤ n) :
    (x ++ y).extractLsb' k w = y.extractLsb' k w := by
  ext i hi
  simp [BitVec.getLsbD_append, BitVec.getElem_extractLsb', show k + i < n by omega]

/-- The whole of a value, as a slice. -/
theorem extract_whole {n : Nat} (x : BitVec n) : x.extractLsb' 0 n = x := by
  ext i hi
  simp

theorem addrBytes_joinAddr (b2 b1 b0 : Byte) : addrBytes (joinAddr b2 b1 b0) = [b2, b1, b0] := by
  have h2 : (b2 ++ b1 ++ b0).extractLsb' 16 8 = b2 :=
    (extract_append_high (b2 ++ b1) b0 8).trans ((extract_append_high b2 b1 0).trans (extract_whole b2))
  have h1 : (b2 ++ b1 ++ b0).extractLsb' 8 8 = b1 :=
    (extract_append_high (b2 ++ b1) b0 0).trans ((extract_append_low b2 b1 0 (by omega)).trans (extract_whole b1))
  have h0 : (b2 ++ b1 ++ b0).extractLsb' 0 8 = b0 := (extract_append_low _ b0 0 (by omega)).trans (extract_whole b0)
  unfold addrBytes joinAddr
  exact congrArg₂ _ h2 (congrArg₂ _ h1 (congrArg₂ _ h0 rfl))

@[simp] theorem addrBytes_length (a : Addr24) : (addrBytes a).length = 3 := rfl

@[simp] theorem opOfCode_code (op : HostOp) : opOfCode op.code = op := by cases op <;> rfl

@[simp] theorem code_opOfCode (c : BitVec 4) : (opOfCode c).code = c := by revert c; decide

theorem commandWord_op (op : HostOp) (addr len : Word) : (commandWord op addr len).extractLsb' 64 4 = op.code :=
  (extract_append_high (op.code ++ addr) len 32).trans ((extract_append_high op.code addr 0).trans (extract_whole _))

theorem commandWord_addr (op : HostOp) (addr len : Word) : (commandWord op addr len).extractLsb' 32 32 = addr :=
  (extract_append_high (op.code ++ addr) len 0).trans ((extract_append_low op.code addr 0 (by omega)).trans (extract_whole _))

theorem commandWord_len (op : HostOp) (addr len : Word) : (commandWord op addr len).extractLsb' 0 32 = len :=
  (extract_append_low (op.code ++ addr) len 0 (by omega)).trans (extract_whole _)

/-- A command word decodes to the operation it was made for. -/
theorem decodeCommand_commandWord (op : HostOp) (addr len : Word) (d : Bytes) :
    decodeCommand (commandWord op addr len) d = op.instr addr len d := by
  simp [decodeCommand, commandWord_op, commandWord_addr, commandWord_len]

/-- The encoding of a host operation as an instruction is its command word and data. -/
theorem encode_instr (op : HostOp) (addr len : Word) (d : Bytes) :
    encode (op.instr addr len d) = encodeCommand op addr len d := by cases op <;> rfl

/-- The check of a host operation as an instruction is the check of its data. -/
theorem wf_instr (op : HostOp) (addr len : Word) (d : Bytes) :
    (op.instr addr len d).wf = wfCmdData op len d := by cases op <;> rfl

@[simp] theorem dataReadFrame_length (a : Addr24) (l : Word) : (dataReadFrame a l).length = l.toNat := by
  simp [dataReadFrame]; omega

end Sys2Proof
end

