-- ==== Sys2Proof/Laws/Memory.lean ====
section
/-! SUPPORT. The laws of the flash memory: what a read gives after each operation, and that every operation keeps the
canonical form. -/

namespace Sys2Proof.Machine

/-! ### Reads -/

/-- A list whose addresses start at `lo` holds nothing below. -/
theorem Memory.read_below (m : Memory) (lo a : Nat) (h : Memory.wfFrom lo m = true) (ha : a < lo) :
    Memory.read m a = Memory.blank := by
  induction m generalizing lo with
  | nil => rfl
  | cons c rest ih =>
    obtain ⟨b, v⟩ := c
    simp only [Memory.wfFrom, Bool.and_eq_true, decide_eq_true_eq] at h
    simp only [Memory.read]
    rw [if_neg (by omega)]
    exact ih (b + 1) h.2 (by omega)

/-- The canonical form from `lo` is one from every smaller bound. -/
theorem Memory.wfFrom_mono (m : Memory) (lo lo' : Nat) (h : Memory.wfFrom lo m = true) (hl : lo' ≤ lo) :
    Memory.wfFrom lo' m = true := by
  cases m with
  | nil => rfl
  | cons c rest =>
    obtain ⟨b, v⟩ := c
    simp only [Memory.wfFrom, Bool.and_eq_true, decide_eq_true_eq] at h ⊢
    exact ⟨⟨by omega, h.1.2⟩, h.2⟩

/-- A write leaves every other address alone. -/
theorem Memory.read_write_of_ne (m : Memory) (a b : Nat) (v : Byte) (h : b ≠ a) :
    Memory.read (Memory.write m a v) b = Memory.read m b := by
  induction m with
  | nil =>
    simp only [Memory.write]
    split <;> simp [Memory.read, h]
  | cons c rest ih =>
    obtain ⟨x, w⟩ := c
    simp only [Memory.write]
    split
    · split <;> simp [Memory.read, h]
    · split
      · split <;> simp_all [Memory.read]
      · simp [Memory.read, ih]

/-- A read after a write to the same address gives the byte written. -/
theorem Memory.read_write_same (m : Memory) (lo a : Nat) (v : Byte) (h : Memory.wfFrom lo m = true) :
    Memory.read (Memory.write m a v) a = v := by
  induction m generalizing lo with
  | nil =>
    simp only [Memory.write]
    split <;> simp_all [Memory.read]
  | cons c rest ih =>
    obtain ⟨x, w⟩ := c
    simp only [Memory.wfFrom, Bool.and_eq_true, decide_eq_true_eq] at h
    simp only [Memory.write]
    split
    · split
      · rename_i hv
        simp only [Memory.read]
        rw [if_neg (by omega), Memory.read_below rest (x + 1) a h.2 (by omega), hv]
      · simp [Memory.read]
    · split
      · split
        · rename_i hx hv
          rw [Memory.read_below rest (x + 1) a h.2 (by omega), hv]
        · simp [Memory.read]
      · rename_i hx
        simp [Memory.read, hx, ih (x + 1) h.2]

/-- Erasing a range sets its bytes to the erased value and leaves every other byte alone. -/
theorem Memory.read_eraseRange (m : Memory) (lo n a : Nat) :
    Memory.read (Memory.eraseRange m lo n) a = if lo ≤ a ∧ a < lo + n then Memory.blank else Memory.read m a := by
  induction m with
  | nil => simp [Memory.eraseRange, Memory.read]
  | cons c rest ih =>
    obtain ⟨x, w⟩ := c
    simp only [Memory.eraseRange] at ih ⊢
    rw [List.filter_cons]
    split
    · rename_i hc
      simp only [Memory.read, ih]
      by_cases hax : a = x
      · subst hax
        simp at hc
        rw [if_pos rfl, if_neg (by omega), if_pos rfl]
      · simp [hax]
    · rename_i hc
      simp at hc
      rw [ih]
      simp only [Memory.read]
      by_cases hax : a = x
      · subst hax
        rw [if_pos (by omega), if_pos (by omega)]
      · simp [hax]

/-! ### The canonical form -/

theorem Memory.wfFrom_write (m : Memory) (lo a : Nat) (v : Byte) (h : Memory.wfFrom lo m = true) (ha : lo ≤ a) :
    Memory.wfFrom lo (Memory.write m a v) = true := by
  induction m generalizing lo with
  | nil =>
    simp only [Memory.write]
    split <;> simp_all [Memory.wfFrom]
  | cons c rest ih =>
    obtain ⟨x, w⟩ := c
    simp only [Memory.wfFrom, Bool.and_eq_true, decide_eq_true_eq] at h
    obtain ⟨⟨hx, hw⟩, hr⟩ := h
    simp only [Memory.write]
    split
    · rename_i hlt
      split
      · simp [Memory.wfFrom, hx, hw, hr]
      · rename_i hv
        simp only [Memory.wfFrom, Bool.and_eq_true, decide_eq_true_eq]
        exact ⟨⟨ha, hv⟩, ⟨by omega, hw⟩, hr⟩
    · split
      · rename_i hax
        subst hax
        split
        · exact Memory.wfFrom_mono rest (a + 1) lo hr (by omega)
        · rename_i hv
          simp [Memory.wfFrom, hx, hv, hr]
      · simp only [Memory.wfFrom, Bool.and_eq_true, decide_eq_true_eq]
        exact ⟨⟨hx, hw⟩, ih (x + 1) hr (by omega)⟩

/-- A write keeps the canonical form. -/
theorem Memory.wf_write (m : Memory) (a : Nat) (v : Byte) (h : m.wf = true) : (m.write a v).wf = true :=
  Memory.wfFrom_write m 0 a v h (Nat.zero_le a)

theorem Memory.wfFrom_filter (m : Memory) (lo : Nat) (q : Host.Cell → Bool) (h : Memory.wfFrom lo m = true) :
    Memory.wfFrom lo (m.filter q) = true := by
  induction m generalizing lo with
  | nil => rfl
  | cons c rest ih =>
    obtain ⟨x, w⟩ := c
    simp only [Memory.wfFrom, Bool.and_eq_true, decide_eq_true_eq] at h
    rw [List.filter_cons]
    split
    · simp only [Memory.wfFrom, Bool.and_eq_true, decide_eq_true_eq]
      exact ⟨h.1, ih (x + 1) h.2⟩
    · exact Memory.wfFrom_mono _ (x + 1) lo (ih (x + 1) h.2) (by omega)

/-- Erasing a range keeps the canonical form. -/
theorem Memory.wf_eraseRange (m : Memory) (lo n : Nat) (h : m.wf = true) : (m.eraseRange lo n).wf = true :=
  Memory.wfFrom_filter m 0 _ h

/-- Programming keeps the canonical form. -/
theorem Memory.wf_program (m : Memory) (a i : Nat) (d : Bytes) (h : m.wf = true) : (m.program a i d).wf = true := by
  induction d generalizing m i with
  | nil => exact h
  | cons v rest ih => exact ih _ _ (Memory.wf_write m _ _ h)

/-! ### Addresses inside the capacity -/

theorem Memory.all_write (m : Memory) (a : Nat) (v : Byte) (q : Nat → Bool) (h : m.all (fun c => q c.1) = true)
    (ha : q a = true) : (m.write a v).all (fun c => q c.1) = true := by
  induction m with
  | nil => simp only [Memory.write]; split <;> simp [ha]
  | cons c rest ih =>
    obtain ⟨x, w⟩ := c
    simp only [List.all_cons, Bool.and_eq_true] at h
    obtain ⟨hx, hr⟩ := h
    have hcons : ∀ (b : Nat) (u : Byte) (l : Memory), q b = true → l.all (fun c => q c.1) = true →
        List.all ((b, u) :: l) (fun c => q c.1) = true := by
      intro b u l hb hl
      rw [List.all_cons, hb, hl]; rfl
    simp only [Memory.write]
    split
    · split
      · exact hcons x w rest hx hr
      · exact hcons a v _ ha (hcons x w rest hx hr)
    · split
      · split
        · exact hr
        · exact hcons a v rest ha hr
      · exact hcons x w _ hx (ih hr)

theorem Memory.all_filter (m : Memory) (q : Nat → Bool) (f : Host.Cell → Bool) (h : m.all (fun c => q c.1) = true) :
    (m.filter f).all (fun c => q c.1) = true := by
  simp only [List.all_eq_true] at h ⊢
  exact fun x hx => h x (List.mem_filter.mp hx).1

/-! ### Programming -/

/-- Payload bytes with different indices below 256 go to different addresses (R93). -/
theorem pageWrap_inj (a i j : Nat) (hi : i < 256) (hj : j < 256) (h : pageWrap a i = pageWrap a j) : i = j := by
  unfold pageWrap at h; omega

/-- Without crossing the page, payload byte `i` goes to address `a + i`. -/
theorem pageWrap_eq (a i : Nat) (h : a % 256 + i < 256) : pageWrap a i = a + i := by
  unfold pageWrap; omega

/-- Programming leaves every byte alone that is none of its targets. -/
theorem Memory.read_program_of_ne (m : Memory) (a k x : Nat) (d : Bytes)
    (h : ∀ i, i < d.length → x ≠ pageWrap a (k + i)) : Memory.read (Memory.program m a k d) x = Memory.read m x := by
  induction d generalizing m k with
  | nil => rfl
  | cons v rest ih =>
    simp only [Memory.program]
    rw [ih _ (k + 1) (fun i hi => by
      have := h (i + 1) (by simp; omega)
      rwa [show k + (i + 1) = k + 1 + i by omega] at this)]
    exact Memory.read_write_of_ne _ _ _ _ (by simpa using h 0 (by simp))

/-- Programming makes each target byte the AND of what it held and the payload byte (R101). -/
theorem Memory.read_program (m : Memory) (a k i : Nat) (d : Bytes) (hm : m.wf = true) (hd : k + d.length ≤ 256)
    (hi : i < d.length) :
    Memory.read (Memory.program m a k d) (pageWrap a (k + i)) = Memory.read m (pageWrap a (k + i)) &&& d[i] := by
  induction d generalizing m k i with
  | nil => simp at hi
  | cons v rest ih =>
    simp only [List.length_cons] at hd hi
    simp only [Memory.program]
    cases i with
    | zero =>
      rw [Memory.read_program_of_ne]
      · simpa using Memory.read_write_same m 0 (pageWrap a k) _ hm
      · intro j hj he
        have := pageWrap_inj a (k + 0) (k + 1 + j) (by omega) (by omega) he
        omega
    | succ i =>
      have := ih (m.write (pageWrap a k) (m.read (pageWrap a k) &&& v)) (k + 1) i (Memory.wf_write _ _ _ hm) (by omega)
        (by omega)
      rw [show k + (i + 1) = k + 1 + i by omega, this]
      rw [Memory.read_write_of_ne _ _ _ _ (fun he => by
        have := pageWrap_inj a (k + 1 + i) k (by omega) (by omega) he; omega)]
      simp

end Sys2Proof.Machine
end

