-- ==== Sys2Proof/Laws/Device.lean ====
section
/-! SUPPORT. The laws of the reference device D0: every answer has the length of its frame, every frame keeps the device
one that R98 allows, and what each listed frame does. -/

namespace Sys2Proof.Machine

@[simp] theorem artifacts_length (n : Nat) : (artifacts n).length = n := by simp [artifacts]

@[simp] theorem Device.data_length (d : Device) (a n : Nat) : (d.data a n).length = n := by simp [Device.data]

/-- What `Device.addressed` can do, said once: either nothing but an answer, or one of the three mutations. -/
theorem Device.addressed_cases (d : Device) (op : Byte) (a : Addr24) (tail : Bytes) :
    (d.addressed op a tail).1.length = 4 + tail.length ∧
    ((d.addressed op a tail).2 = d ∨
      (op = opcPp ∧ (d.addressed op a tail).2 = d.mutated (d.mem.program (d.flashAddr a) 0 tail)) ∨
      (op = opcSe ∧ (d.addressed op a tail).2 = d.mutated (d.mem.eraseRange (d.flashAddr a - d.flashAddr a % 4096) 4096)) ∨
      (op = opcBe64 ∧
        (d.addressed op a tail).2 = d.mutated (d.mem.eraseRange (d.flashAddr a - d.flashAddr a % 65536) 65536))) := by
  unfold Device.addressed
  split
  · simp
  · split
    · rename_i h; exact ⟨by simp, .inr (.inl ⟨h.1, rfl⟩)⟩
    · split
      · rename_i h; exact ⟨by simp, .inr (.inr (.inl ⟨h.1, rfl⟩))⟩
      · split
        · rename_i h; exact ⟨by simp, .inr (.inr (.inr ⟨h.1, rfl⟩))⟩
        · simp

/-- Every answer of D0 is as long as the frame (R9). -/
theorem Device.respond_length (d : Device) (req : Bytes) : (d.respond req).1.length = req.length := by
  unfold Device.respond
  split
  · rfl
  · rename_i op rest
    split
    · rename_i h; simp [h.2]
    · split
      · rename_i h; simp [h.2]
      · split
        · simp
        · split
          · rename_i h; simp [h.2]
          · split
            · rename_i h; simp [h.2]
            · split
              · rename_i h; simp [h.2]
              · split
                · rename_i h; simp [h.2.1]
                · split
                  · rw [(Device.addressed_cases d op _ _).1]; simp; omega
                  · simp

/-- What a frame can change in D0, said once: nothing of its parameters; and the array by a program frame, an erase
frame or a chip erase only. -/
theorem Device.respond_cases (d : Device) (req : Bytes) :
    ((d.respond req).2.cap = d.cap ∧ (d.respond req).2.idh = d.idh ∧ (d.respond req).2.idl = d.idl ∧
      (d.respond req).2.k = d.k) ∧
    ((d.respond req).2.mem = d.mem ∨ (req = [opcCe] ∧ (d.respond req).2.mem = []) ∨
      ∃ op b2 b1 b0 tail, req = op :: b2 :: b1 :: b0 :: tail ∧
        ((op = opcPp ∧ (d.respond req).2.mem = d.mem.program (d.flashAddr (joinAddr b2 b1 b0)) 0 tail) ∨
         (op = opcSe ∧ (d.respond req).2.mem = d.mem.eraseRange
            (d.flashAddr (joinAddr b2 b1 b0) - d.flashAddr (joinAddr b2 b1 b0) % 4096) 4096) ∨
         (op = opcBe64 ∧ (d.respond req).2.mem = d.mem.eraseRange
            (d.flashAddr (joinAddr b2 b1 b0) - d.flashAddr (joinAddr b2 b1 b0) % 65536) 65536))) := by
  unfold Device.respond
  split
  · simp
  · rename_i op rest
    split
    · simp
    · split
      · simp
      · split
        · simp
        · split
          · simp
          · split
            · simp
            · split
              · simp
              · split
                · rename_i h; simp [Device.mutated, h.1, h.2.1]
                · split
                  · rename_i b2 b1 b0 tail _ _ _ _ _ _
                    rcases (Device.addressed_cases d op (joinAddr b2 b1 b0) tail).2 with h | ⟨ho, h⟩ | ⟨ho, h⟩ | ⟨ho, h⟩
                    · simp [h]
                    · refine ⟨by simp [h, Device.mutated], .inr (.inr ⟨op, b2, b1, b0, tail, rfl, .inl ⟨ho, ?_⟩⟩)⟩
                      simp [h, Device.mutated]
                    · refine ⟨by simp [h, Device.mutated], .inr (.inr ⟨op, b2, b1, b0, tail, rfl, .inr (.inl ⟨ho, ?_⟩)⟩)⟩
                      simp [h, Device.mutated]
                    · refine ⟨by simp [h, Device.mutated], .inr (.inr ⟨op, b2, b1, b0, tail, rfl, .inr (.inr ⟨ho, ?_⟩)⟩)⟩
                      simp [h, Device.mutated]
                  · simp

/-- The four facts of a well-formed device. -/
theorem Device.wf_iff (d : Device) : d.wf = true ↔
    0 < d.cap ∧ d.cap % 65536 = 0 ∧ d.mem.wf = true ∧ d.mem.all (fun c => decide (c.1 < d.cap)) = true := by
  simp [Device.wf, and_assoc]

theorem pageWrap_lt (cap a i : Nat) (ha : a < cap) (hc : cap % 65536 = 0) : pageWrap a i < cap := by
  unfold pageWrap; omega

theorem Memory.all_program (m : Memory) (cap a i : Nat) (d : Bytes) (ha : a < cap) (hc : cap % 65536 = 0)
    (h : m.all (fun c => decide (c.1 < cap)) = true) :
    (m.program a i d).all (fun c => decide (c.1 < cap)) = true := by
  induction d generalizing m i with
  | nil => exact h
  | cons v rest ih =>
    exact ih _ _ (Memory.all_write m _ _ (fun x => decide (x < cap)) h (by simpa using pageWrap_lt cap a i ha hc))

/-- Every frame keeps D0 a device that R98 allows. -/
theorem Device.wf_respond (d : Device) (req : Bytes) (h : d.wf = true) : (d.respond req).2.wf = true := by
  obtain ⟨h0, h1, h2, h3⟩ := (Device.wf_iff d).mp h
  obtain ⟨⟨hc, -, -, -⟩, hm⟩ := Device.respond_cases d req
  rw [Device.wf_iff, hc]
  refine ⟨h0, h1, ?_⟩
  have ha : ∀ a, d.flashAddr a < d.cap := fun a => Nat.mod_lt _ h0
  rcases hm with hm | ⟨-, hm⟩ | ⟨op, b2, b1, b0, tail, -, ⟨-, hm⟩ | ⟨-, hm⟩ | ⟨-, hm⟩⟩
  · rw [hm]; exact ⟨h2, h3⟩
  · rw [hm]; exact ⟨rfl, rfl⟩
  · rw [hm]; exact ⟨Memory.wf_program _ _ _ _ h2, Memory.all_program _ _ _ _ _ (ha _) h1 h3⟩
  · rw [hm]; exact ⟨Memory.wf_eraseRange _ _ _ h2, Memory.all_filter _ (fun x => decide (x < d.cap)) _ h3⟩
  · rw [hm]; exact ⟨Memory.wf_eraseRange _ _ _ h2, Memory.all_filter _ (fun x => decide (x < d.cap)) _ h3⟩

/-! ### The listed frames -/

/-- A status-1 read is answered in every state of the device (R99). -/
theorem Device.respond_rdsr1 (d : Device) (f : Byte) :
    d.respond [opcRdsr1, f] = ([artifact, d.status], { d with bsy := d.bsy - 1 }) := rfl

/-- A status-2 read is answered in every state of the device (R99). -/
theorem Device.respond_rdsr2 (d : Device) (f : Byte) : d.respond [opcRdsr2, f] = ([artifact, 0x00#8], d) := rfl

/-- A busy device changes nothing on a frame that is no status read (R98). -/
theorem Device.respond_busy (d : Device) (op : Byte) (rest : Bytes) (h : d.bsy ≠ 0) (h1 : op ≠ opcRdsr1) (h2 : op ≠ opcRdsr2) :
    d.respond (op :: rest) = (artifacts (rest.length + 1), d) := by
  simp [Device.respond, h, h1, h2]

theorem Device.respond_wren (d : Device) (h : d.bsy = 0) : d.respond [opcWren] = (artifacts 1, { d with wel := true }) := by
  simp [Device.respond, h, opcWren, opcRdsr1, opcRdsr2, opcJedecid]

theorem Device.respond_wrdi (d : Device) (h : d.bsy = 0) : d.respond [opcWrdi] = (artifacts 1, { d with wel := false }) := by
  simp [Device.respond, h, opcWrdi, opcWren, opcRdsr1, opcRdsr2, opcJedecid]

theorem Device.respond_ce (d : Device) (h : d.bsy = 0) (hw : d.wel = true) :
    d.respond [opcCe] = (artifacts 1, d.mutated []) := by
  simp [Device.respond, h, hw, opcCe, opcWrdi, opcWren, opcRdsr1, opcRdsr2, opcJedecid]

theorem Device.respond_jedecid (d : Device) (f1 f2 f3 : Byte) (h : d.bsy = 0) :
    d.respond [opcJedecid, f1, f2, f3] = ([artifact, d0Manufacturer, d.idh, d.idl], d) := by
  simp [Device.respond, h, opcRdsr1, opcRdsr2, opcJedecid]

theorem Device.respond_pp (d : Device) (a : Addr24) (v : Bytes) (h : d.bsy = 0) (hw : d.wel = true) (hv : v ≠ [])
    (hl : v.length ≤ 256) :
    d.respond (opcPp :: (addrBytes a ++ v)) =
      (artifacts (4 + v.length), d.mutated (d.mem.program (d.flashAddr a) 0 v)) := by
  have hj := joinAddr_extract a
  simp [Device.respond, Device.addressed, addrBytes, hj, h, hw, hv, hl, opcPp, opcDataRead, opcCe, opcWrdi, opcWren, opcRdsr1,
    opcRdsr2, opcJedecid]

theorem Device.respond_se (d : Device) (a : Addr24) (h : d.bsy = 0) (hw : d.wel = true) :
    d.respond (opcSe :: addrBytes a) =
      (artifacts 4, d.mutated (d.mem.eraseRange (d.flashAddr a - d.flashAddr a % 4096) 4096)) := by
  have hj := joinAddr_extract a
  simp [Device.respond, Device.addressed, addrBytes, hj, h, hw, opcSe, opcPp, opcDataRead, opcCe, opcWrdi, opcWren, opcRdsr1,
    opcRdsr2, opcJedecid]

theorem Device.respond_be64 (d : Device) (a : Addr24) (h : d.bsy = 0) (hw : d.wel = true) :
    d.respond (opcBe64 :: addrBytes a) =
      (artifacts 4, d.mutated (d.mem.eraseRange (d.flashAddr a - d.flashAddr a % 65536) 65536)) := by
  have hj := joinAddr_extract a
  simp [Device.respond, Device.addressed, addrBytes, hj, h, hw, opcBe64, opcSe, opcPp, opcDataRead, opcCe, opcWrdi, opcWren,
    opcRdsr1, opcRdsr2, opcJedecid]

theorem Device.respond_dataRead (d : Device) (a : Addr24) (f : Bytes) (h : d.bsy = 0) :
    d.respond (opcDataRead :: (addrBytes a ++ f)) = (artifacts 4 ++ d.data (d.flashAddr a) f.length, d) := by
  have hj := joinAddr_extract a
  simp [Device.respond, Device.addressed, addrBytes, hj, h, opcDataRead, opcCe, opcWrdi, opcWren, opcRdsr1, opcRdsr2, opcJedecid]

end Sys2Proof.Machine
end

