-- ==== Sys2Proof/Laws/State.lean ====
section
/-! SUPPORT. One lemma per field per named update of the state, each true by definition, so that no later proof unfolds
a record update. -/

namespace Sys2Proof.Machine

/-! ### `State.emit` -/

@[simp] theorem State.emit_addr (s : State) (e : Event) : (s.emit e).addr = s.addr := rfl
@[simp] theorem State.emit_len (s : State) (e : Event) : (s.emit e).len = s.len := rfl
@[simp] theorem State.emit_cur (s : State) (e : Event) : (s.emit e).cur = s.cur := rfl
@[simp] theorem State.emit_off (s : State) (e : Event) : (s.emit e).off = s.off := rfl
@[simp] theorem State.emit_n (s : State) (e : Event) : (s.emit e).n = s.n := rfl
@[simp] theorem State.emit_p (s : State) (e : Event) : (s.emit e).p = s.p := rfl
@[simp] theorem State.emit_att (s : State) (e : Event) : (s.emit e).att = s.att := rfl
@[simp] theorem State.emit_cnt (s : State) (e : Event) : (s.emit e).cnt = s.cnt := rfl
@[simp] theorem State.emit_opr (s : State) (e : Event) : (s.emit e).opr = s.opr := rfl
@[simp] theorem State.emit_wbuf (s : State) (e : Event) : (s.emit e).wbuf = s.wbuf := rfl
@[simp] theorem State.emit_rbuf (s : State) (e : Event) : (s.emit e).rbuf = s.rbuf := rfl
@[simp] theorem State.emit_fb (s : State) (e : Event) : (s.emit e).fb = s.fb := rfl
@[simp] theorem State.emit_ph (s : State) (e : Event) : (s.emit e).ph = s.ph := rfl
@[simp] theorem State.emit_port (s : State) (e : Event) : (s.emit e).port = s.port := rfl
@[simp] theorem State.emit_valid (s : State) (e : Event) : (s.emit e).valid = s.valid := rfl
@[simp] theorem State.emit_model (s : State) (e : Event) : (s.emit e).model = s.model := rfl
@[simp] theorem State.emit_size (s : State) (e : Event) : (s.emit e).size = s.size := rfl
@[simp] theorem State.emit_pollLimit (s : State) (e : Event) : (s.emit e).pollLimit = s.pollLimit := rfl
@[simp] theorem State.emit_sr1 (s : State) (e : Event) : (s.emit e).sr1 = s.sr1 := rfl
@[simp] theorem State.emit_sr2 (s : State) (e : Event) : (s.emit e).sr2 = s.sr2 := rfl
@[simp] theorem State.emit_jedec (s : State) (e : Event) : (s.emit e).jedec = s.jedec := rfl
@[simp] theorem State.emit_result (s : State) (e : Event) : (s.emit e).result = s.result := rfl
@[simp] theorem State.emit_count (s : State) (e : Event) : (s.emit e).count = s.count := rfl
@[simp] theorem State.emit_host (s : State) (e : Event) : (s.emit e).host = s.host := rfl
@[simp] theorem State.emit_regOut (s : State) (e : Event) : (s.emit e).regOut = s.regOut := rfl
@[simp] theorem State.emit_resets (s : State) (e : Event) : (s.emit e).resets = s.resets := rfl
@[simp] theorem State.emit_chip (s : State) (e : Event) : (s.emit e).chip = s.chip := rfl
@[simp] theorem State.emit_params (s : State) (e : Event) : (s.emit e).params = s.params := rfl
@[simp] theorem State.emit_free (s : State) (e : Event) : (s.emit e).free = s.free := rfl
@[simp] theorem State.emit_trace (s : State) (e : Event) : (s.emit e).trace = s.trace ++ [e] := rfl

/-! ### `State.exchange` -/

@[simp] theorem State.exchange_addr (s : State) (req : Bytes) : (s.exchange req).addr = s.addr := rfl
@[simp] theorem State.exchange_len (s : State) (req : Bytes) : (s.exchange req).len = s.len := rfl
@[simp] theorem State.exchange_cur (s : State) (req : Bytes) : (s.exchange req).cur = s.cur := rfl
@[simp] theorem State.exchange_off (s : State) (req : Bytes) : (s.exchange req).off = s.off := rfl
@[simp] theorem State.exchange_n (s : State) (req : Bytes) : (s.exchange req).n = s.n := rfl
@[simp] theorem State.exchange_p (s : State) (req : Bytes) : (s.exchange req).p = s.p := rfl
@[simp] theorem State.exchange_att (s : State) (req : Bytes) : (s.exchange req).att = s.att := rfl
@[simp] theorem State.exchange_cnt (s : State) (req : Bytes) : (s.exchange req).cnt = s.cnt := rfl
@[simp] theorem State.exchange_opr (s : State) (req : Bytes) : (s.exchange req).opr = s.opr := rfl
@[simp] theorem State.exchange_wbuf (s : State) (req : Bytes) : (s.exchange req).wbuf = s.wbuf := rfl
@[simp] theorem State.exchange_rbuf (s : State) (req : Bytes) : (s.exchange req).rbuf = s.rbuf := rfl
@[simp] theorem State.exchange_fb (s : State) (req : Bytes) : (s.exchange req).fb = s.fb := rfl
@[simp] theorem State.exchange_ph (s : State) (req : Bytes) : (s.exchange req).ph = s.ph := rfl
@[simp] theorem State.exchange_port (s : State) (req : Bytes) : (s.exchange req).port = s.port := rfl
@[simp] theorem State.exchange_valid (s : State) (req : Bytes) : (s.exchange req).valid = s.valid := rfl
@[simp] theorem State.exchange_model (s : State) (req : Bytes) : (s.exchange req).model = s.model := rfl
@[simp] theorem State.exchange_size (s : State) (req : Bytes) : (s.exchange req).size = s.size := rfl
@[simp] theorem State.exchange_pollLimit (s : State) (req : Bytes) : (s.exchange req).pollLimit = s.pollLimit := rfl
@[simp] theorem State.exchange_sr1 (s : State) (req : Bytes) : (s.exchange req).sr1 = s.sr1 := rfl
@[simp] theorem State.exchange_sr2 (s : State) (req : Bytes) : (s.exchange req).sr2 = s.sr2 := rfl
@[simp] theorem State.exchange_jedec (s : State) (req : Bytes) : (s.exchange req).jedec = s.jedec := rfl
@[simp] theorem State.exchange_result (s : State) (req : Bytes) : (s.exchange req).result = s.result := rfl
@[simp] theorem State.exchange_count (s : State) (req : Bytes) : (s.exchange req).count = s.count := rfl
@[simp] theorem State.exchange_host (s : State) (req : Bytes) : (s.exchange req).host = s.host := rfl
@[simp] theorem State.exchange_regOut (s : State) (req : Bytes) : (s.exchange req).regOut = s.regOut := rfl
@[simp] theorem State.exchange_resets (s : State) (req : Bytes) : (s.exchange req).resets = s.resets := rfl
@[simp] theorem State.exchange_chip (s : State) (req : Bytes) : (s.exchange req).chip = s.chip.after req := rfl
@[simp] theorem State.exchange_params (s : State) (req : Bytes) : (s.exchange req).params = s.params := rfl
@[simp] theorem State.exchange_free (s : State) (req : Bytes) : (s.exchange req).free = s.free + 1 := rfl
@[simp] theorem State.exchange_trace (s : State) (req : Bytes) : (s.exchange req).trace = s.trace ++ [.xfer req (s.response req)] := rfl

/-! ### `State.at` -/

@[simp] theorem State.at_addr (s : State) (rt : Routine) (k : Nat) (rest : List Record) : (s.at rt k rest).addr = s.addr := rfl
@[simp] theorem State.at_len (s : State) (rt : Routine) (k : Nat) (rest : List Record) : (s.at rt k rest).len = s.len := rfl
@[simp] theorem State.at_cur (s : State) (rt : Routine) (k : Nat) (rest : List Record) : (s.at rt k rest).cur = s.cur := rfl
@[simp] theorem State.at_off (s : State) (rt : Routine) (k : Nat) (rest : List Record) : (s.at rt k rest).off = s.off := rfl
@[simp] theorem State.at_n (s : State) (rt : Routine) (k : Nat) (rest : List Record) : (s.at rt k rest).n = s.n := rfl
@[simp] theorem State.at_p (s : State) (rt : Routine) (k : Nat) (rest : List Record) : (s.at rt k rest).p = s.p := rfl
@[simp] theorem State.at_att (s : State) (rt : Routine) (k : Nat) (rest : List Record) : (s.at rt k rest).att = s.att := rfl
@[simp] theorem State.at_cnt (s : State) (rt : Routine) (k : Nat) (rest : List Record) : (s.at rt k rest).cnt = s.cnt := rfl
@[simp] theorem State.at_opr (s : State) (rt : Routine) (k : Nat) (rest : List Record) : (s.at rt k rest).opr = s.opr := rfl
@[simp] theorem State.at_wbuf (s : State) (rt : Routine) (k : Nat) (rest : List Record) : (s.at rt k rest).wbuf = s.wbuf := rfl
@[simp] theorem State.at_rbuf (s : State) (rt : Routine) (k : Nat) (rest : List Record) : (s.at rt k rest).rbuf = s.rbuf := rfl
@[simp] theorem State.at_fb (s : State) (rt : Routine) (k : Nat) (rest : List Record) : (s.at rt k rest).fb = s.fb := rfl
@[simp] theorem State.at_ph (s : State) (rt : Routine) (k : Nat) (rest : List Record) : (s.at rt k rest).ph = ⟨rt, k⟩ :: rest := rfl
@[simp] theorem State.at_port (s : State) (rt : Routine) (k : Nat) (rest : List Record) : (s.at rt k rest).port = s.port := rfl
@[simp] theorem State.at_valid (s : State) (rt : Routine) (k : Nat) (rest : List Record) : (s.at rt k rest).valid = s.valid := rfl
@[simp] theorem State.at_model (s : State) (rt : Routine) (k : Nat) (rest : List Record) : (s.at rt k rest).model = s.model := rfl
@[simp] theorem State.at_size (s : State) (rt : Routine) (k : Nat) (rest : List Record) : (s.at rt k rest).size = s.size := rfl
@[simp] theorem State.at_pollLimit (s : State) (rt : Routine) (k : Nat) (rest : List Record) : (s.at rt k rest).pollLimit = s.pollLimit := rfl
@[simp] theorem State.at_sr1 (s : State) (rt : Routine) (k : Nat) (rest : List Record) : (s.at rt k rest).sr1 = s.sr1 := rfl
@[simp] theorem State.at_sr2 (s : State) (rt : Routine) (k : Nat) (rest : List Record) : (s.at rt k rest).sr2 = s.sr2 := rfl
@[simp] theorem State.at_jedec (s : State) (rt : Routine) (k : Nat) (rest : List Record) : (s.at rt k rest).jedec = s.jedec := rfl
@[simp] theorem State.at_result (s : State) (rt : Routine) (k : Nat) (rest : List Record) : (s.at rt k rest).result = s.result := rfl
@[simp] theorem State.at_count (s : State) (rt : Routine) (k : Nat) (rest : List Record) : (s.at rt k rest).count = s.count := rfl
@[simp] theorem State.at_host (s : State) (rt : Routine) (k : Nat) (rest : List Record) : (s.at rt k rest).host = s.host := rfl
@[simp] theorem State.at_regOut (s : State) (rt : Routine) (k : Nat) (rest : List Record) : (s.at rt k rest).regOut = s.regOut := rfl
@[simp] theorem State.at_resets (s : State) (rt : Routine) (k : Nat) (rest : List Record) : (s.at rt k rest).resets = s.resets := rfl
@[simp] theorem State.at_chip (s : State) (rt : Routine) (k : Nat) (rest : List Record) : (s.at rt k rest).chip = s.chip := rfl
@[simp] theorem State.at_params (s : State) (rt : Routine) (k : Nat) (rest : List Record) : (s.at rt k rest).params = s.params := rfl
@[simp] theorem State.at_free (s : State) (rt : Routine) (k : Nat) (rest : List Record) : (s.at rt k rest).free = s.free := rfl
@[simp] theorem State.at_trace (s : State) (rt : Routine) (k : Nat) (rest : List Record) : (s.at rt k rest).trace = s.trace := rfl

/-! ### `State.call` -/

@[simp] theorem State.call_addr (s : State) (callee rt : Routine) (k : Nat) (rest : List Record) : (s.call callee rt k rest).addr = s.addr := rfl
@[simp] theorem State.call_len (s : State) (callee rt : Routine) (k : Nat) (rest : List Record) : (s.call callee rt k rest).len = s.len := rfl
@[simp] theorem State.call_cur (s : State) (callee rt : Routine) (k : Nat) (rest : List Record) : (s.call callee rt k rest).cur = s.cur := rfl
@[simp] theorem State.call_off (s : State) (callee rt : Routine) (k : Nat) (rest : List Record) : (s.call callee rt k rest).off = s.off := rfl
@[simp] theorem State.call_n (s : State) (callee rt : Routine) (k : Nat) (rest : List Record) : (s.call callee rt k rest).n = s.n := rfl
@[simp] theorem State.call_p (s : State) (callee rt : Routine) (k : Nat) (rest : List Record) : (s.call callee rt k rest).p = s.p := rfl
@[simp] theorem State.call_att (s : State) (callee rt : Routine) (k : Nat) (rest : List Record) : (s.call callee rt k rest).att = s.att := rfl
@[simp] theorem State.call_cnt (s : State) (callee rt : Routine) (k : Nat) (rest : List Record) : (s.call callee rt k rest).cnt = s.cnt := rfl
@[simp] theorem State.call_opr (s : State) (callee rt : Routine) (k : Nat) (rest : List Record) : (s.call callee rt k rest).opr = s.opr := rfl
@[simp] theorem State.call_wbuf (s : State) (callee rt : Routine) (k : Nat) (rest : List Record) : (s.call callee rt k rest).wbuf = s.wbuf := rfl
@[simp] theorem State.call_rbuf (s : State) (callee rt : Routine) (k : Nat) (rest : List Record) : (s.call callee rt k rest).rbuf = s.rbuf := rfl
@[simp] theorem State.call_fb (s : State) (callee rt : Routine) (k : Nat) (rest : List Record) : (s.call callee rt k rest).fb = s.fb := rfl
@[simp] theorem State.call_ph (s : State) (callee rt : Routine) (k : Nat) (rest : List Record) : (s.call callee rt k rest).ph = ⟨callee, 1⟩ :: ⟨rt, k⟩ :: rest := rfl
@[simp] theorem State.call_port (s : State) (callee rt : Routine) (k : Nat) (rest : List Record) : (s.call callee rt k rest).port = s.port := rfl
@[simp] theorem State.call_valid (s : State) (callee rt : Routine) (k : Nat) (rest : List Record) : (s.call callee rt k rest).valid = s.valid := rfl
@[simp] theorem State.call_model (s : State) (callee rt : Routine) (k : Nat) (rest : List Record) : (s.call callee rt k rest).model = s.model := rfl
@[simp] theorem State.call_size (s : State) (callee rt : Routine) (k : Nat) (rest : List Record) : (s.call callee rt k rest).size = s.size := rfl
@[simp] theorem State.call_pollLimit (s : State) (callee rt : Routine) (k : Nat) (rest : List Record) : (s.call callee rt k rest).pollLimit = s.pollLimit := rfl
@[simp] theorem State.call_sr1 (s : State) (callee rt : Routine) (k : Nat) (rest : List Record) : (s.call callee rt k rest).sr1 = s.sr1 := rfl
@[simp] theorem State.call_sr2 (s : State) (callee rt : Routine) (k : Nat) (rest : List Record) : (s.call callee rt k rest).sr2 = s.sr2 := rfl
@[simp] theorem State.call_jedec (s : State) (callee rt : Routine) (k : Nat) (rest : List Record) : (s.call callee rt k rest).jedec = s.jedec := rfl
@[simp] theorem State.call_result (s : State) (callee rt : Routine) (k : Nat) (rest : List Record) : (s.call callee rt k rest).result = s.result := rfl
@[simp] theorem State.call_count (s : State) (callee rt : Routine) (k : Nat) (rest : List Record) : (s.call callee rt k rest).count = s.count := rfl
@[simp] theorem State.call_host (s : State) (callee rt : Routine) (k : Nat) (rest : List Record) : (s.call callee rt k rest).host = s.host := rfl
@[simp] theorem State.call_regOut (s : State) (callee rt : Routine) (k : Nat) (rest : List Record) : (s.call callee rt k rest).regOut = s.regOut := rfl
@[simp] theorem State.call_resets (s : State) (callee rt : Routine) (k : Nat) (rest : List Record) : (s.call callee rt k rest).resets = s.resets := rfl
@[simp] theorem State.call_chip (s : State) (callee rt : Routine) (k : Nat) (rest : List Record) : (s.call callee rt k rest).chip = s.chip := rfl
@[simp] theorem State.call_params (s : State) (callee rt : Routine) (k : Nat) (rest : List Record) : (s.call callee rt k rest).params = s.params := rfl
@[simp] theorem State.call_free (s : State) (callee rt : Routine) (k : Nat) (rest : List Record) : (s.call callee rt k rest).free = s.free := rfl
@[simp] theorem State.call_trace (s : State) (callee rt : Routine) (k : Nat) (rest : List Record) : (s.call callee rt k rest).trace = s.trace := rfl

/-! ### `State.ret` -/

@[simp] theorem State.ret_addr (s : State) (rest : List Record) : (s.ret rest).addr = s.addr := rfl
@[simp] theorem State.ret_len (s : State) (rest : List Record) : (s.ret rest).len = s.len := rfl
@[simp] theorem State.ret_cur (s : State) (rest : List Record) : (s.ret rest).cur = s.cur := rfl
@[simp] theorem State.ret_off (s : State) (rest : List Record) : (s.ret rest).off = s.off := rfl
@[simp] theorem State.ret_n (s : State) (rest : List Record) : (s.ret rest).n = s.n := rfl
@[simp] theorem State.ret_p (s : State) (rest : List Record) : (s.ret rest).p = s.p := rfl
@[simp] theorem State.ret_att (s : State) (rest : List Record) : (s.ret rest).att = s.att := rfl
@[simp] theorem State.ret_cnt (s : State) (rest : List Record) : (s.ret rest).cnt = s.cnt := rfl
@[simp] theorem State.ret_opr (s : State) (rest : List Record) : (s.ret rest).opr = s.opr := rfl
@[simp] theorem State.ret_wbuf (s : State) (rest : List Record) : (s.ret rest).wbuf = s.wbuf := rfl
@[simp] theorem State.ret_rbuf (s : State) (rest : List Record) : (s.ret rest).rbuf = s.rbuf := rfl
@[simp] theorem State.ret_fb (s : State) (rest : List Record) : (s.ret rest).fb = s.fb := rfl
@[simp] theorem State.ret_ph (s : State) (rest : List Record) : (s.ret rest).ph = rest := rfl
@[simp] theorem State.ret_port (s : State) (rest : List Record) : (s.ret rest).port = s.port := rfl
@[simp] theorem State.ret_valid (s : State) (rest : List Record) : (s.ret rest).valid = s.valid := rfl
@[simp] theorem State.ret_model (s : State) (rest : List Record) : (s.ret rest).model = s.model := rfl
@[simp] theorem State.ret_size (s : State) (rest : List Record) : (s.ret rest).size = s.size := rfl
@[simp] theorem State.ret_pollLimit (s : State) (rest : List Record) : (s.ret rest).pollLimit = s.pollLimit := rfl
@[simp] theorem State.ret_sr1 (s : State) (rest : List Record) : (s.ret rest).sr1 = s.sr1 := rfl
@[simp] theorem State.ret_sr2 (s : State) (rest : List Record) : (s.ret rest).sr2 = s.sr2 := rfl
@[simp] theorem State.ret_jedec (s : State) (rest : List Record) : (s.ret rest).jedec = s.jedec := rfl
@[simp] theorem State.ret_result (s : State) (rest : List Record) : (s.ret rest).result = s.result := rfl
@[simp] theorem State.ret_count (s : State) (rest : List Record) : (s.ret rest).count = s.count := rfl
@[simp] theorem State.ret_host (s : State) (rest : List Record) : (s.ret rest).host = s.host := rfl
@[simp] theorem State.ret_regOut (s : State) (rest : List Record) : (s.ret rest).regOut = s.regOut := rfl
@[simp] theorem State.ret_resets (s : State) (rest : List Record) : (s.ret rest).resets = s.resets := rfl
@[simp] theorem State.ret_chip (s : State) (rest : List Record) : (s.ret rest).chip = s.chip := rfl
@[simp] theorem State.ret_params (s : State) (rest : List Record) : (s.ret rest).params = s.params := rfl
@[simp] theorem State.ret_free (s : State) (rest : List Record) : (s.ret rest).free = s.free := rfl
@[simp] theorem State.ret_trace (s : State) (rest : List Record) : (s.ret rest).trace = s.trace := rfl

/-! ### `State.request` -/

@[simp] theorem State.request_addr (s : State) (req : Bytes) : (s.request req).addr = s.addr := rfl
@[simp] theorem State.request_len (s : State) (req : Bytes) : (s.request req).len = s.len := rfl
@[simp] theorem State.request_cur (s : State) (req : Bytes) : (s.request req).cur = s.cur := rfl
@[simp] theorem State.request_off (s : State) (req : Bytes) : (s.request req).off = s.off := rfl
@[simp] theorem State.request_n (s : State) (req : Bytes) : (s.request req).n = s.n := rfl
@[simp] theorem State.request_p (s : State) (req : Bytes) : (s.request req).p = s.p := rfl
@[simp] theorem State.request_att (s : State) (req : Bytes) : (s.request req).att = s.att := rfl
@[simp] theorem State.request_cnt (s : State) (req : Bytes) : (s.request req).cnt = s.cnt := rfl
@[simp] theorem State.request_opr (s : State) (req : Bytes) : (s.request req).opr = s.opr := rfl
@[simp] theorem State.request_wbuf (s : State) (req : Bytes) : (s.request req).wbuf = s.wbuf := rfl
@[simp] theorem State.request_rbuf (s : State) (req : Bytes) : (s.request req).rbuf = s.rbuf := rfl
@[simp] theorem State.request_fb (s : State) (req : Bytes) : (s.request req).fb = s.fb := rfl
@[simp] theorem State.request_ph (s : State) (req : Bytes) : (s.request req).ph = s.ph := rfl
@[simp] theorem State.request_port (s : State) (req : Bytes) : (s.request req).port = some (.xfer req) := rfl
@[simp] theorem State.request_valid (s : State) (req : Bytes) : (s.request req).valid = s.valid := rfl
@[simp] theorem State.request_model (s : State) (req : Bytes) : (s.request req).model = s.model := rfl
@[simp] theorem State.request_size (s : State) (req : Bytes) : (s.request req).size = s.size := rfl
@[simp] theorem State.request_pollLimit (s : State) (req : Bytes) : (s.request req).pollLimit = s.pollLimit := rfl
@[simp] theorem State.request_sr1 (s : State) (req : Bytes) : (s.request req).sr1 = s.sr1 := rfl
@[simp] theorem State.request_sr2 (s : State) (req : Bytes) : (s.request req).sr2 = s.sr2 := rfl
@[simp] theorem State.request_jedec (s : State) (req : Bytes) : (s.request req).jedec = s.jedec := rfl
@[simp] theorem State.request_result (s : State) (req : Bytes) : (s.request req).result = s.result := rfl
@[simp] theorem State.request_count (s : State) (req : Bytes) : (s.request req).count = s.count := rfl
@[simp] theorem State.request_host (s : State) (req : Bytes) : (s.request req).host = s.host := rfl
@[simp] theorem State.request_regOut (s : State) (req : Bytes) : (s.request req).regOut = s.regOut := rfl
@[simp] theorem State.request_resets (s : State) (req : Bytes) : (s.request req).resets = s.resets := rfl
@[simp] theorem State.request_chip (s : State) (req : Bytes) : (s.request req).chip = s.chip := rfl
@[simp] theorem State.request_params (s : State) (req : Bytes) : (s.request req).params = s.params := rfl
@[simp] theorem State.request_free (s : State) (req : Bytes) : (s.request req).free = s.free := rfl
@[simp] theorem State.request_trace (s : State) (req : Bytes) : (s.request req).trace = s.trace := rfl

/-! ### `State.requestDelay` -/

@[simp] theorem State.requestDelay_addr (s : State) (ms : Nat) : (s.requestDelay ms).addr = s.addr := rfl
@[simp] theorem State.requestDelay_len (s : State) (ms : Nat) : (s.requestDelay ms).len = s.len := rfl
@[simp] theorem State.requestDelay_cur (s : State) (ms : Nat) : (s.requestDelay ms).cur = s.cur := rfl
@[simp] theorem State.requestDelay_off (s : State) (ms : Nat) : (s.requestDelay ms).off = s.off := rfl
@[simp] theorem State.requestDelay_n (s : State) (ms : Nat) : (s.requestDelay ms).n = s.n := rfl
@[simp] theorem State.requestDelay_p (s : State) (ms : Nat) : (s.requestDelay ms).p = s.p := rfl
@[simp] theorem State.requestDelay_att (s : State) (ms : Nat) : (s.requestDelay ms).att = s.att := rfl
@[simp] theorem State.requestDelay_cnt (s : State) (ms : Nat) : (s.requestDelay ms).cnt = s.cnt := rfl
@[simp] theorem State.requestDelay_opr (s : State) (ms : Nat) : (s.requestDelay ms).opr = s.opr := rfl
@[simp] theorem State.requestDelay_wbuf (s : State) (ms : Nat) : (s.requestDelay ms).wbuf = s.wbuf := rfl
@[simp] theorem State.requestDelay_rbuf (s : State) (ms : Nat) : (s.requestDelay ms).rbuf = s.rbuf := rfl
@[simp] theorem State.requestDelay_fb (s : State) (ms : Nat) : (s.requestDelay ms).fb = s.fb := rfl
@[simp] theorem State.requestDelay_ph (s : State) (ms : Nat) : (s.requestDelay ms).ph = s.ph := rfl
@[simp] theorem State.requestDelay_port (s : State) (ms : Nat) : (s.requestDelay ms).port = some (.delay ms) := rfl
@[simp] theorem State.requestDelay_valid (s : State) (ms : Nat) : (s.requestDelay ms).valid = s.valid := rfl
@[simp] theorem State.requestDelay_model (s : State) (ms : Nat) : (s.requestDelay ms).model = s.model := rfl
@[simp] theorem State.requestDelay_size (s : State) (ms : Nat) : (s.requestDelay ms).size = s.size := rfl
@[simp] theorem State.requestDelay_pollLimit (s : State) (ms : Nat) : (s.requestDelay ms).pollLimit = s.pollLimit := rfl
@[simp] theorem State.requestDelay_sr1 (s : State) (ms : Nat) : (s.requestDelay ms).sr1 = s.sr1 := rfl
@[simp] theorem State.requestDelay_sr2 (s : State) (ms : Nat) : (s.requestDelay ms).sr2 = s.sr2 := rfl
@[simp] theorem State.requestDelay_jedec (s : State) (ms : Nat) : (s.requestDelay ms).jedec = s.jedec := rfl
@[simp] theorem State.requestDelay_result (s : State) (ms : Nat) : (s.requestDelay ms).result = s.result := rfl
@[simp] theorem State.requestDelay_count (s : State) (ms : Nat) : (s.requestDelay ms).count = s.count := rfl
@[simp] theorem State.requestDelay_host (s : State) (ms : Nat) : (s.requestDelay ms).host = s.host := rfl
@[simp] theorem State.requestDelay_regOut (s : State) (ms : Nat) : (s.requestDelay ms).regOut = s.regOut := rfl
@[simp] theorem State.requestDelay_resets (s : State) (ms : Nat) : (s.requestDelay ms).resets = s.resets := rfl
@[simp] theorem State.requestDelay_chip (s : State) (ms : Nat) : (s.requestDelay ms).chip = s.chip := rfl
@[simp] theorem State.requestDelay_params (s : State) (ms : Nat) : (s.requestDelay ms).params = s.params := rfl
@[simp] theorem State.requestDelay_free (s : State) (ms : Nat) : (s.requestDelay ms).free = s.free := rfl
@[simp] theorem State.requestDelay_trace (s : State) (ms : Nat) : (s.requestDelay ms).trace = s.trace := rfl

/-! ### `State.finish` -/

@[simp] theorem State.finish_addr (s : State) (rdata : Bytes) : (s.finish rdata).addr = s.addr := rfl
@[simp] theorem State.finish_len (s : State) (rdata : Bytes) : (s.finish rdata).len = s.len := rfl
@[simp] theorem State.finish_cur (s : State) (rdata : Bytes) : (s.finish rdata).cur = s.cur := rfl
@[simp] theorem State.finish_off (s : State) (rdata : Bytes) : (s.finish rdata).off = s.off := rfl
@[simp] theorem State.finish_n (s : State) (rdata : Bytes) : (s.finish rdata).n = s.n := rfl
@[simp] theorem State.finish_p (s : State) (rdata : Bytes) : (s.finish rdata).p = s.p := rfl
@[simp] theorem State.finish_att (s : State) (rdata : Bytes) : (s.finish rdata).att = s.att := rfl
@[simp] theorem State.finish_cnt (s : State) (rdata : Bytes) : (s.finish rdata).cnt = s.cnt := rfl
@[simp] theorem State.finish_opr (s : State) (rdata : Bytes) : (s.finish rdata).opr = freeOpr s.free := rfl
@[simp] theorem State.finish_wbuf (s : State) (rdata : Bytes) : (s.finish rdata).wbuf = s.wbuf := rfl
@[simp] theorem State.finish_rbuf (s : State) (rdata : Bytes) : (s.finish rdata).rbuf = s.rbuf := rfl
@[simp] theorem State.finish_fb (s : State) (rdata : Bytes) : (s.finish rdata).fb = s.fb := rfl
@[simp] theorem State.finish_ph (s : State) (rdata : Bytes) : (s.finish rdata).ph = [] := rfl
@[simp] theorem State.finish_port (s : State) (rdata : Bytes) : (s.finish rdata).port = s.port := rfl
@[simp] theorem State.finish_valid (s : State) (rdata : Bytes) : (s.finish rdata).valid = s.valid := rfl
@[simp] theorem State.finish_model (s : State) (rdata : Bytes) : (s.finish rdata).model = s.model := rfl
@[simp] theorem State.finish_size (s : State) (rdata : Bytes) : (s.finish rdata).size = s.size := rfl
@[simp] theorem State.finish_pollLimit (s : State) (rdata : Bytes) : (s.finish rdata).pollLimit = s.pollLimit := rfl
@[simp] theorem State.finish_sr1 (s : State) (rdata : Bytes) : (s.finish rdata).sr1 = s.sr1 := rfl
@[simp] theorem State.finish_sr2 (s : State) (rdata : Bytes) : (s.finish rdata).sr2 = s.sr2 := rfl
@[simp] theorem State.finish_jedec (s : State) (rdata : Bytes) : (s.finish rdata).jedec = s.jedec := rfl
@[simp] theorem State.finish_result (s : State) (rdata : Bytes) : (s.finish rdata).result = packResult .none true := rfl
@[simp] theorem State.finish_count (s : State) (rdata : Bytes) : (s.finish rdata).count = s.cnt := rfl
@[simp] theorem State.finish_host (s : State) (rdata : Bytes) : (s.finish rdata).host = s.host := rfl
@[simp] theorem State.finish_regOut (s : State) (rdata : Bytes) : (s.finish rdata).regOut = s.regOut := rfl
@[simp] theorem State.finish_resets (s : State) (rdata : Bytes) : (s.finish rdata).resets = s.resets := rfl
@[simp] theorem State.finish_chip (s : State) (rdata : Bytes) : (s.finish rdata).chip = s.chip := rfl
@[simp] theorem State.finish_params (s : State) (rdata : Bytes) : (s.finish rdata).params = s.params := rfl
@[simp] theorem State.finish_free (s : State) (rdata : Bytes) : (s.finish rdata).free = s.free + 1 := rfl
@[simp] theorem State.finish_trace (s : State) (rdata : Bytes) : (s.finish rdata).trace = s.trace ++ [.done true .none s.cnt rdata] := rfl

/-! ### `State.raise` -/

@[simp] theorem State.raise_addr (s : State) (c : Cause) : (s.raise c).addr = s.addr := rfl
@[simp] theorem State.raise_len (s : State) (c : Cause) : (s.raise c).len = s.len := rfl
@[simp] theorem State.raise_cur (s : State) (c : Cause) : (s.raise c).cur = s.cur := rfl
@[simp] theorem State.raise_off (s : State) (c : Cause) : (s.raise c).off = s.off := rfl
@[simp] theorem State.raise_n (s : State) (c : Cause) : (s.raise c).n = s.n := rfl
@[simp] theorem State.raise_p (s : State) (c : Cause) : (s.raise c).p = s.p := rfl
@[simp] theorem State.raise_att (s : State) (c : Cause) : (s.raise c).att = s.att := rfl
@[simp] theorem State.raise_cnt (s : State) (c : Cause) : (s.raise c).cnt = s.cnt := rfl
@[simp] theorem State.raise_opr (s : State) (c : Cause) : (s.raise c).opr = freeOpr s.free := rfl
@[simp] theorem State.raise_wbuf (s : State) (c : Cause) : (s.raise c).wbuf = s.wbuf := rfl
@[simp] theorem State.raise_rbuf (s : State) (c : Cause) : (s.raise c).rbuf = s.rbuf := rfl
@[simp] theorem State.raise_fb (s : State) (c : Cause) : (s.raise c).fb = s.fb := rfl
@[simp] theorem State.raise_ph (s : State) (c : Cause) : (s.raise c).ph = [] := rfl
@[simp] theorem State.raise_port (s : State) (c : Cause) : (s.raise c).port = none := rfl
@[simp] theorem State.raise_valid (s : State) (c : Cause) : (s.raise c).valid = s.valid := rfl
@[simp] theorem State.raise_model (s : State) (c : Cause) : (s.raise c).model = s.model := rfl
@[simp] theorem State.raise_size (s : State) (c : Cause) : (s.raise c).size = s.size := rfl
@[simp] theorem State.raise_pollLimit (s : State) (c : Cause) : (s.raise c).pollLimit = s.pollLimit := rfl
@[simp] theorem State.raise_sr1 (s : State) (c : Cause) : (s.raise c).sr1 = s.sr1 := rfl
@[simp] theorem State.raise_sr2 (s : State) (c : Cause) : (s.raise c).sr2 = s.sr2 := rfl
@[simp] theorem State.raise_jedec (s : State) (c : Cause) : (s.raise c).jedec = s.jedec := rfl
@[simp] theorem State.raise_result (s : State) (c : Cause) : (s.raise c).result = packResult c false := rfl
@[simp] theorem State.raise_count (s : State) (c : Cause) : (s.raise c).count = s.cnt := rfl
@[simp] theorem State.raise_host (s : State) (c : Cause) : (s.raise c).host = s.host := rfl
@[simp] theorem State.raise_regOut (s : State) (c : Cause) : (s.raise c).regOut = s.regOut := rfl
@[simp] theorem State.raise_resets (s : State) (c : Cause) : (s.raise c).resets = s.resets := rfl
@[simp] theorem State.raise_chip (s : State) (c : Cause) : (s.raise c).chip = s.chip := rfl
@[simp] theorem State.raise_params (s : State) (c : Cause) : (s.raise c).params = s.params := rfl
@[simp] theorem State.raise_free (s : State) (c : Cause) : (s.raise c).free = s.free + 1 := rfl
@[simp] theorem State.raise_trace (s : State) (c : Cause) : (s.raise c).trace = s.trace ++ [.done false c s.cnt []] := rfl

/-! ### `State.latch` -/

@[simp] theorem State.latch_addr (s : State) (op : HostOp) (a l : Word) (d : Bytes) : (s.latch op a l d).addr = a := rfl
@[simp] theorem State.latch_len (s : State) (op : HostOp) (a l : Word) (d : Bytes) : (s.latch op a l d).len = l := rfl
@[simp] theorem State.latch_cur (s : State) (op : HostOp) (a l : Word) (d : Bytes) : (s.latch op a l d).cur = s.cur := rfl
@[simp] theorem State.latch_off (s : State) (op : HostOp) (a l : Word) (d : Bytes) : (s.latch op a l d).off = s.off := rfl
@[simp] theorem State.latch_n (s : State) (op : HostOp) (a l : Word) (d : Bytes) : (s.latch op a l d).n = s.n := rfl
@[simp] theorem State.latch_p (s : State) (op : HostOp) (a l : Word) (d : Bytes) : (s.latch op a l d).p = s.p := rfl
@[simp] theorem State.latch_att (s : State) (op : HostOp) (a l : Word) (d : Bytes) : (s.latch op a l d).att = s.att := rfl
@[simp] theorem State.latch_cnt (s : State) (op : HostOp) (a l : Word) (d : Bytes) : (s.latch op a l d).cnt = 0#32 := rfl
@[simp] theorem State.latch_opr (s : State) (op : HostOp) (a l : Word) (d : Bytes) : (s.latch op a l d).opr = op.code := rfl
@[simp] theorem State.latch_wbuf (s : State) (op : HostOp) (a l : Word) (d : Bytes) : (s.latch op a l d).wbuf = d := rfl
@[simp] theorem State.latch_rbuf (s : State) (op : HostOp) (a l : Word) (d : Bytes) : (s.latch op a l d).rbuf = [] := rfl
@[simp] theorem State.latch_fb (s : State) (op : HostOp) (a l : Word) (d : Bytes) : (s.latch op a l d).fb = s.fb := rfl
@[simp] theorem State.latch_ph (s : State) (op : HostOp) (a l : Word) (d : Bytes) : (s.latch op a l d).ph = s.ph := rfl
@[simp] theorem State.latch_port (s : State) (op : HostOp) (a l : Word) (d : Bytes) : (s.latch op a l d).port = s.port := rfl
@[simp] theorem State.latch_valid (s : State) (op : HostOp) (a l : Word) (d : Bytes) : (s.latch op a l d).valid = s.valid := rfl
@[simp] theorem State.latch_model (s : State) (op : HostOp) (a l : Word) (d : Bytes) : (s.latch op a l d).model = s.model := rfl
@[simp] theorem State.latch_size (s : State) (op : HostOp) (a l : Word) (d : Bytes) : (s.latch op a l d).size = s.size := rfl
@[simp] theorem State.latch_pollLimit (s : State) (op : HostOp) (a l : Word) (d : Bytes) : (s.latch op a l d).pollLimit = s.pollLimit := rfl
@[simp] theorem State.latch_sr1 (s : State) (op : HostOp) (a l : Word) (d : Bytes) : (s.latch op a l d).sr1 = s.sr1 := rfl
@[simp] theorem State.latch_sr2 (s : State) (op : HostOp) (a l : Word) (d : Bytes) : (s.latch op a l d).sr2 = s.sr2 := rfl
@[simp] theorem State.latch_jedec (s : State) (op : HostOp) (a l : Word) (d : Bytes) : (s.latch op a l d).jedec = s.jedec := rfl
@[simp] theorem State.latch_result (s : State) (op : HostOp) (a l : Word) (d : Bytes) : (s.latch op a l d).result = s.result := rfl
@[simp] theorem State.latch_count (s : State) (op : HostOp) (a l : Word) (d : Bytes) : (s.latch op a l d).count = s.count := rfl
@[simp] theorem State.latch_host (s : State) (op : HostOp) (a l : Word) (d : Bytes) : (s.latch op a l d).host = s.host := rfl
@[simp] theorem State.latch_regOut (s : State) (op : HostOp) (a l : Word) (d : Bytes) : (s.latch op a l d).regOut = s.regOut := rfl
@[simp] theorem State.latch_resets (s : State) (op : HostOp) (a l : Word) (d : Bytes) : (s.latch op a l d).resets = s.resets := rfl
@[simp] theorem State.latch_chip (s : State) (op : HostOp) (a l : Word) (d : Bytes) : (s.latch op a l d).chip = s.chip := rfl
@[simp] theorem State.latch_params (s : State) (op : HostOp) (a l : Word) (d : Bytes) : (s.latch op a l d).params = s.params := rfl
@[simp] theorem State.latch_free (s : State) (op : HostOp) (a l : Word) (d : Bytes) : (s.latch op a l d).free = s.free := rfl
@[simp] theorem State.latch_trace (s : State) (op : HostOp) (a l : Word) (d : Bytes) : (s.latch op a l d).trace = s.trace ++ [.cmd op.code a l d] := rfl

/-! ### `State.configure` -/

@[simp] theorem State.configure_addr (s : State) (v : Word) : (s.configure v).addr = s.addr := rfl
@[simp] theorem State.configure_len (s : State) (v : Word) : (s.configure v).len = s.len := rfl
@[simp] theorem State.configure_cur (s : State) (v : Word) : (s.configure v).cur = s.cur := rfl
@[simp] theorem State.configure_off (s : State) (v : Word) : (s.configure v).off = s.off := rfl
@[simp] theorem State.configure_n (s : State) (v : Word) : (s.configure v).n = s.n := rfl
@[simp] theorem State.configure_p (s : State) (v : Word) : (s.configure v).p = s.p := rfl
@[simp] theorem State.configure_att (s : State) (v : Word) : (s.configure v).att = s.att := rfl
@[simp] theorem State.configure_cnt (s : State) (v : Word) : (s.configure v).cnt = s.cnt := rfl
@[simp] theorem State.configure_opr (s : State) (v : Word) : (s.configure v).opr = s.opr := rfl
@[simp] theorem State.configure_wbuf (s : State) (v : Word) : (s.configure v).wbuf = s.wbuf := rfl
@[simp] theorem State.configure_rbuf (s : State) (v : Word) : (s.configure v).rbuf = s.rbuf := rfl
@[simp] theorem State.configure_fb (s : State) (v : Word) : (s.configure v).fb = s.fb := rfl
@[simp] theorem State.configure_ph (s : State) (v : Word) : (s.configure v).ph = s.ph := rfl
@[simp] theorem State.configure_port (s : State) (v : Word) : (s.configure v).port = s.port := rfl
@[simp] theorem State.configure_valid (s : State) (v : Word) : (s.configure v).valid = s.valid := rfl
@[simp] theorem State.configure_model (s : State) (v : Word) : (s.configure v).model = s.model := rfl
@[simp] theorem State.configure_size (s : State) (v : Word) : (s.configure v).size = s.size := rfl
@[simp] theorem State.configure_pollLimit (s : State) (v : Word) : (s.configure v).pollLimit = v := rfl
@[simp] theorem State.configure_sr1 (s : State) (v : Word) : (s.configure v).sr1 = s.sr1 := rfl
@[simp] theorem State.configure_sr2 (s : State) (v : Word) : (s.configure v).sr2 = s.sr2 := rfl
@[simp] theorem State.configure_jedec (s : State) (v : Word) : (s.configure v).jedec = s.jedec := rfl
@[simp] theorem State.configure_result (s : State) (v : Word) : (s.configure v).result = s.result := rfl
@[simp] theorem State.configure_count (s : State) (v : Word) : (s.configure v).count = s.count := rfl
@[simp] theorem State.configure_host (s : State) (v : Word) : (s.configure v).host = s.host := rfl
@[simp] theorem State.configure_regOut (s : State) (v : Word) : (s.configure v).regOut = s.regOut := rfl
@[simp] theorem State.configure_resets (s : State) (v : Word) : (s.configure v).resets = s.resets := rfl
@[simp] theorem State.configure_chip (s : State) (v : Word) : (s.configure v).chip = s.chip := rfl
@[simp] theorem State.configure_params (s : State) (v : Word) : (s.configure v).params = s.params := rfl
@[simp] theorem State.configure_free (s : State) (v : Word) : (s.configure v).free = s.free := rfl
@[simp] theorem State.configure_trace (s : State) (v : Word) : (s.configure v).trace = s.trace ++ [.cfg v] := rfl

/-! ### `State.answerRead` -/

@[simp] theorem State.answerRead_addr (s : State) (i : BitVec 4) : (s.answerRead i).addr = s.addr := rfl
@[simp] theorem State.answerRead_len (s : State) (i : BitVec 4) : (s.answerRead i).len = s.len := rfl
@[simp] theorem State.answerRead_cur (s : State) (i : BitVec 4) : (s.answerRead i).cur = s.cur := rfl
@[simp] theorem State.answerRead_off (s : State) (i : BitVec 4) : (s.answerRead i).off = s.off := rfl
@[simp] theorem State.answerRead_n (s : State) (i : BitVec 4) : (s.answerRead i).n = s.n := rfl
@[simp] theorem State.answerRead_p (s : State) (i : BitVec 4) : (s.answerRead i).p = s.p := rfl
@[simp] theorem State.answerRead_att (s : State) (i : BitVec 4) : (s.answerRead i).att = s.att := rfl
@[simp] theorem State.answerRead_cnt (s : State) (i : BitVec 4) : (s.answerRead i).cnt = s.cnt := rfl
@[simp] theorem State.answerRead_opr (s : State) (i : BitVec 4) : (s.answerRead i).opr = s.opr := rfl
@[simp] theorem State.answerRead_wbuf (s : State) (i : BitVec 4) : (s.answerRead i).wbuf = s.wbuf := rfl
@[simp] theorem State.answerRead_rbuf (s : State) (i : BitVec 4) : (s.answerRead i).rbuf = s.rbuf := rfl
@[simp] theorem State.answerRead_fb (s : State) (i : BitVec 4) : (s.answerRead i).fb = s.fb := rfl
@[simp] theorem State.answerRead_ph (s : State) (i : BitVec 4) : (s.answerRead i).ph = s.ph := rfl
@[simp] theorem State.answerRead_port (s : State) (i : BitVec 4) : (s.answerRead i).port = s.port := rfl
@[simp] theorem State.answerRead_valid (s : State) (i : BitVec 4) : (s.answerRead i).valid = s.valid := rfl
@[simp] theorem State.answerRead_model (s : State) (i : BitVec 4) : (s.answerRead i).model = s.model := rfl
@[simp] theorem State.answerRead_size (s : State) (i : BitVec 4) : (s.answerRead i).size = s.size := rfl
@[simp] theorem State.answerRead_pollLimit (s : State) (i : BitVec 4) : (s.answerRead i).pollLimit = s.pollLimit := rfl
@[simp] theorem State.answerRead_sr1 (s : State) (i : BitVec 4) : (s.answerRead i).sr1 = s.sr1 := rfl
@[simp] theorem State.answerRead_sr2 (s : State) (i : BitVec 4) : (s.answerRead i).sr2 = s.sr2 := rfl
@[simp] theorem State.answerRead_jedec (s : State) (i : BitVec 4) : (s.answerRead i).jedec = s.jedec := rfl
@[simp] theorem State.answerRead_result (s : State) (i : BitVec 4) : (s.answerRead i).result = s.result := rfl
@[simp] theorem State.answerRead_count (s : State) (i : BitVec 4) : (s.answerRead i).count = s.count := rfl
@[simp] theorem State.answerRead_host (s : State) (i : BitVec 4) : (s.answerRead i).host = s.host := rfl
@[simp] theorem State.answerRead_regOut (s : State) (i : BitVec 4) : (s.answerRead i).regOut = some (i, s.readReg i) := rfl
@[simp] theorem State.answerRead_resets (s : State) (i : BitVec 4) : (s.answerRead i).resets = s.resets := rfl
@[simp] theorem State.answerRead_chip (s : State) (i : BitVec 4) : (s.answerRead i).chip = s.chip := rfl
@[simp] theorem State.answerRead_params (s : State) (i : BitVec 4) : (s.answerRead i).params = s.params := rfl
@[simp] theorem State.answerRead_free (s : State) (i : BitVec 4) : (s.answerRead i).free = s.free + 1 := rfl
@[simp] theorem State.answerRead_trace (s : State) (i : BitVec 4) : (s.answerRead i).trace = s.trace := rfl

/-! ### `State.clearHandle` -/

@[simp] theorem State.clearHandle_addr (s : State) : s.clearHandle.addr = s.addr := rfl
@[simp] theorem State.clearHandle_len (s : State) : s.clearHandle.len = s.len := rfl
@[simp] theorem State.clearHandle_cur (s : State) : s.clearHandle.cur = s.cur := rfl
@[simp] theorem State.clearHandle_off (s : State) : s.clearHandle.off = s.off := rfl
@[simp] theorem State.clearHandle_n (s : State) : s.clearHandle.n = s.n := rfl
@[simp] theorem State.clearHandle_p (s : State) : s.clearHandle.p = s.p := rfl
@[simp] theorem State.clearHandle_att (s : State) : s.clearHandle.att = s.att := rfl
@[simp] theorem State.clearHandle_cnt (s : State) : s.clearHandle.cnt = s.cnt := rfl
@[simp] theorem State.clearHandle_opr (s : State) : s.clearHandle.opr = s.opr := rfl
@[simp] theorem State.clearHandle_wbuf (s : State) : s.clearHandle.wbuf = s.wbuf := rfl
@[simp] theorem State.clearHandle_rbuf (s : State) : s.clearHandle.rbuf = s.rbuf := rfl
@[simp] theorem State.clearHandle_fb (s : State) : s.clearHandle.fb = s.fb := rfl
@[simp] theorem State.clearHandle_ph (s : State) : s.clearHandle.ph = s.ph := rfl
@[simp] theorem State.clearHandle_port (s : State) : s.clearHandle.port = s.port := rfl
@[simp] theorem State.clearHandle_valid (s : State) : s.clearHandle.valid = false := rfl
@[simp] theorem State.clearHandle_model (s : State) : s.clearHandle.model = 0xF#4 := rfl
@[simp] theorem State.clearHandle_size (s : State) : s.clearHandle.size = 0#32 := rfl
@[simp] theorem State.clearHandle_pollLimit (s : State) : s.clearHandle.pollLimit = s.pollLimit := rfl
@[simp] theorem State.clearHandle_sr1 (s : State) : s.clearHandle.sr1 = s.sr1 := rfl
@[simp] theorem State.clearHandle_sr2 (s : State) : s.clearHandle.sr2 = s.sr2 := rfl
@[simp] theorem State.clearHandle_jedec (s : State) : s.clearHandle.jedec = s.jedec := rfl
@[simp] theorem State.clearHandle_result (s : State) : s.clearHandle.result = s.result := rfl
@[simp] theorem State.clearHandle_count (s : State) : s.clearHandle.count = s.count := rfl
@[simp] theorem State.clearHandle_host (s : State) : s.clearHandle.host = s.host := rfl
@[simp] theorem State.clearHandle_regOut (s : State) : s.clearHandle.regOut = s.regOut := rfl
@[simp] theorem State.clearHandle_resets (s : State) : s.clearHandle.resets = s.resets := rfl
@[simp] theorem State.clearHandle_chip (s : State) : s.clearHandle.chip = s.chip := rfl
@[simp] theorem State.clearHandle_params (s : State) : s.clearHandle.params = s.params := rfl
@[simp] theorem State.clearHandle_free (s : State) : s.clearHandle.free = s.free := rfl
@[simp] theorem State.clearHandle_trace (s : State) : s.clearHandle.trace = s.trace := rfl

/-! ### `State.setHandle` -/

@[simp] theorem State.setHandle_addr (s : State) (k pages : Nat) : (s.setHandle k pages).addr = s.addr := rfl
@[simp] theorem State.setHandle_len (s : State) (k pages : Nat) : (s.setHandle k pages).len = s.len := rfl
@[simp] theorem State.setHandle_cur (s : State) (k pages : Nat) : (s.setHandle k pages).cur = s.cur := rfl
@[simp] theorem State.setHandle_off (s : State) (k pages : Nat) : (s.setHandle k pages).off = s.off := rfl
@[simp] theorem State.setHandle_n (s : State) (k pages : Nat) : (s.setHandle k pages).n = s.n := rfl
@[simp] theorem State.setHandle_p (s : State) (k pages : Nat) : (s.setHandle k pages).p = s.p := rfl
@[simp] theorem State.setHandle_att (s : State) (k pages : Nat) : (s.setHandle k pages).att = s.att := rfl
@[simp] theorem State.setHandle_cnt (s : State) (k pages : Nat) : (s.setHandle k pages).cnt = s.cnt := rfl
@[simp] theorem State.setHandle_opr (s : State) (k pages : Nat) : (s.setHandle k pages).opr = s.opr := rfl
@[simp] theorem State.setHandle_wbuf (s : State) (k pages : Nat) : (s.setHandle k pages).wbuf = s.wbuf := rfl
@[simp] theorem State.setHandle_rbuf (s : State) (k pages : Nat) : (s.setHandle k pages).rbuf = s.rbuf := rfl
@[simp] theorem State.setHandle_fb (s : State) (k pages : Nat) : (s.setHandle k pages).fb = s.fb := rfl
@[simp] theorem State.setHandle_ph (s : State) (k pages : Nat) : (s.setHandle k pages).ph = s.ph := rfl
@[simp] theorem State.setHandle_port (s : State) (k pages : Nat) : (s.setHandle k pages).port = s.port := rfl
@[simp] theorem State.setHandle_valid (s : State) (k pages : Nat) : (s.setHandle k pages).valid = true := rfl
@[simp] theorem State.setHandle_model (s : State) (k pages : Nat) : (s.setHandle k pages).model = BitVec.ofNat 4 k := rfl
@[simp] theorem State.setHandle_size (s : State) (k pages : Nat) : (s.setHandle k pages).size = BitVec.ofNat 32 pages := rfl
@[simp] theorem State.setHandle_pollLimit (s : State) (k pages : Nat) : (s.setHandle k pages).pollLimit = s.pollLimit := rfl
@[simp] theorem State.setHandle_sr1 (s : State) (k pages : Nat) : (s.setHandle k pages).sr1 = s.sr1 := rfl
@[simp] theorem State.setHandle_sr2 (s : State) (k pages : Nat) : (s.setHandle k pages).sr2 = s.sr2 := rfl
@[simp] theorem State.setHandle_jedec (s : State) (k pages : Nat) : (s.setHandle k pages).jedec = s.jedec := rfl
@[simp] theorem State.setHandle_result (s : State) (k pages : Nat) : (s.setHandle k pages).result = s.result := rfl
@[simp] theorem State.setHandle_count (s : State) (k pages : Nat) : (s.setHandle k pages).count = s.count := rfl
@[simp] theorem State.setHandle_host (s : State) (k pages : Nat) : (s.setHandle k pages).host = s.host := rfl
@[simp] theorem State.setHandle_regOut (s : State) (k pages : Nat) : (s.setHandle k pages).regOut = s.regOut := rfl
@[simp] theorem State.setHandle_resets (s : State) (k pages : Nat) : (s.setHandle k pages).resets = s.resets := rfl
@[simp] theorem State.setHandle_chip (s : State) (k pages : Nat) : (s.setHandle k pages).chip = s.chip := rfl
@[simp] theorem State.setHandle_params (s : State) (k pages : Nat) : (s.setHandle k pages).params = s.params := rfl
@[simp] theorem State.setHandle_free (s : State) (k pages : Nat) : (s.setHandle k pages).free = s.free := rfl
@[simp] theorem State.setHandle_trace (s : State) (k pages : Nat) : (s.setHandle k pages).trace = s.trace := rfl

/-! ### `State.resetEvent` -/

@[simp] theorem State.resetEvent_ph (s : State) : s.resetEvent.ph = [] := rfl
@[simp] theorem State.resetEvent_port (s : State) : s.resetEvent.port = none := rfl
@[simp] theorem State.resetEvent_valid (s : State) : s.resetEvent.valid = false := rfl
@[simp] theorem State.resetEvent_model (s : State) : s.resetEvent.model = 0xF#4 := rfl
@[simp] theorem State.resetEvent_size (s : State) : s.resetEvent.size = 0#32 := rfl
@[simp] theorem State.resetEvent_pollLimit (s : State) : s.resetEvent.pollLimit = 0#32 := rfl
@[simp] theorem State.resetEvent_host (s : State) : s.resetEvent.host = s.host := rfl
@[simp] theorem State.resetEvent_regOut (s : State) : s.resetEvent.regOut = s.regOut := rfl
@[simp] theorem State.resetEvent_resets (s : State) : s.resetEvent.resets = s.resets := rfl
@[simp] theorem State.resetEvent_chip (s : State) : s.resetEvent.chip = s.chip.abandon s.port s.free := rfl
@[simp] theorem State.resetEvent_params (s : State) : s.resetEvent.params = s.params := rfl
@[simp] theorem State.resetEvent_free (s : State) : s.resetEvent.free = s.free + 1 := rfl
@[simp] theorem State.resetEvent_trace (s : State) : s.resetEvent.trace = s.trace ++ [.reset] := rfl

end Sys2Proof.Machine
end

