-- ==== Sys2Proof/Laws/Ops.lean ====
section
/-! SUPPORT. What each shared operation can do, said once. -/

namespace Sys2Proof.Machine

/-- The answer of any chip is as long as the frame (R9). -/
@[simp] theorem Chip.answer_length (c : Chip) (k : Nat) (req : Bytes) : (c.answer k req).length = req.length := by
  cases c with
  | unknown answers => simp [Chip.answer, fitAnswer]
  | d0 d => exact Device.respond_length d req

@[simp] theorem State.response_length (s : State) (req : Bytes) : (s.response req).length = req.length :=
  Chip.answer_length _ _ _

@[simp] theorem freeFrameBuffer_length (k : Nat) : (freeFrameBuffer k).length = 260 := by simp [freeFrameBuffer]

/-- Acceptance in IDLE of a well-formed `Cmd` that this block exposes (R38a). -/
theorem State.accept_ok (s : State) (op : HostOp) (a l : Word) (d : Bytes) (hp : s.ph = []) (hq : s.port = none)
    (hd : wfCmdData op l d = true) (hx : op.internal = false ∨ s.params.exposeInternal = true) :
    s.accept op a l d = .next ((s.latch op a l d).at (.host op) 1 []) := by
  rcases hx with hx | hx <;> simp [State.accept, hp, hq, hd, hx]

/-- What acceptance can do: stop, refuse an internal operation, or start the routine (R38a, R133). -/
theorem State.accept_cases (s t : State) (op : HostOp) (a l : Word) (d : Bytes) (h : s.accept op a l d = .next t) :
    s.ph = [] ∧ s.port = none ∧ wfCmdData op l d = true ∧
    ((op.internal = true ∧ s.params.exposeInternal = false ∧ t = (s.latch op a l d).at .refusal 1 []) ∨
     ((op.internal = false ∨ s.params.exposeInternal = true) ∧ t = (s.latch op a l d).at (.host op) 1 [])) := by
  unfold State.accept at h
  split at h
  · cases h
  · rename_i h1
    simp only [not_or, not_not] at h1
    split at h
    · cases h
    · rename_i h2
      split at h
      · rename_i h3
        cases h
        exact ⟨h1.1, h1.2, by simpa using h2, .inl ⟨h3.1, h3.2, rfl⟩⟩
      · rename_i h3
        cases h
        refine ⟨h1.1, h1.2, by simpa using h2, .inr ⟨?_, rfl⟩⟩
        cases ho : op.internal <;> simp_all

/-- An instruction that the transfer port carries (a frame decodes to no other). -/
def isWire : Instr → Bool
  | .wren | .wrdi | .vsrwe | .rdsr1 | .rdsr2 | .jedecid | .dataRead _ _ | .pp _ _ | .se _ | .be32 _ | .be64 _ | .ce => true
  | _ => false

end Sys2Proof.Machine
end

