-- ==== Sys2Proof/Laws/PerInstr.lean ====
section
/-! SUPPORT. What is said of every instruction, one lemma per constructor: the encoding begins with the code that the
opcode table gives the instruction. -/

namespace Sys2Proof

/-- The part of an encoding that names the instruction: the opcode byte of a frame, the four code bits of a command. -/
inductive Head where
  | opcode (b : Byte)
  | code (c : BitVec 4)
deriving DecidableEq, Repr

/-- The head of a packet: byte 0 of a frame (R110), bits 67 to 64 of a command word (R130). -/
def Packet.head : Packet → Option Head
  | .frame [] => none
  | .frame (b :: _) => some (.opcode b)
  | .command w _ => some (.code (w.extractLsb' 64 4))

/-- The opcode of R112 or the code of R131, written out. -/
def Instr.head : Instr → Head
  | .wren => .opcode 0x06#8
  | .wrdi => .opcode 0x04#8
  | .vsrwe => .opcode 0x50#8
  | .rdsr1 => .opcode 0x05#8
  | .rdsr2 => .opcode 0x35#8
  | .jedecid => .opcode 0x9F#8
  | .dataRead _ _ => .opcode 0x03#8
  | .pp _ _ => .opcode 0x02#8
  | .se _ => .opcode 0x20#8
  | .be32 _ => .opcode 0x52#8
  | .be64 _ => .opcode 0xD8#8
  | .ce => .opcode 0xC7#8
  | .mount _ _ _ => .code 0x0#4
  | .read _ _ _ => .code 0x1#4
  | .write _ _ _ => .code 0x2#4
  | .erase _ _ _ => .code 0x3#4
  | .eraseAll _ _ _ => .code 0x4#4
  | .checkParam _ _ _ => .code 0x5#4
  | .readStatus _ _ _ => .code 0x6#4
  | .waitUntilReady _ _ _ => .code 0x7#4
  | .writeEnable _ _ _ => .code 0x8#4
  | .writeDisable _ _ _ => .code 0x9#4
  | .volatileStatusWriteEnable _ _ _ => .code 0xA#4
  | .readJedec _ _ _ => .code 0xB#4
  | .pageProgram _ _ _ => .code 0xC#4
  | .sectorErase _ _ _ => .code 0xD#4
  | .blockErase64k _ _ _ => .code 0xE#4
  | .blockErase32k _ _ _ => .code 0xF#4

/-- The head of a command is its operation's code. -/
theorem encodeCommand_head (op : HostOp) (a l : Word) (d : Bytes) :
    (encodeCommand op a l d).head = some (.code op.code) := by
  simp [encodeCommand, Packet.head, commandWord_op]

namespace Laws.EncodeHead

/-- The encoding of a well-formed instruction begins with the code of the opcode table. -/
def Statement (i : Instr) : Prop := i.wf = true → (encode i).head = some i.head

theorem wren : Statement .wren := fun _ => rfl
theorem wrdi : Statement .wrdi := fun _ => rfl
theorem vsrwe : Statement .vsrwe := fun _ => rfl
theorem rdsr1 : Statement .rdsr1 := fun _ => rfl
theorem rdsr2 : Statement .rdsr2 := fun _ => rfl
theorem jedecid : Statement .jedecid := fun _ => rfl
theorem dataRead (a : Addr24) (l : Word) : Statement (.dataRead a l) := by
  intro h
  obtain ⟨k, hk⟩ : ∃ k, l.toNat = k + 1 := by
    simp only [Instr.wf, wfDataRead, Bool.and_eq_true, decide_eq_true_eq] at h
    have hz : l.toNat ≠ 0 := fun hz => h.1 (BitVec.eq_of_toNat_eq hz)
    exact ⟨l.toNat - 1, by omega⟩
  simp [encode, dataReadFrame, hk, Packet.head, Instr.head, opcDataRead]
theorem pp (a : Addr24) (d : Bytes) : Statement (.pp a d) := fun _ => rfl
theorem se (a : Addr24) : Statement (.se a) := fun _ => rfl
theorem be32 (a : Addr24) : Statement (.be32 a) := fun _ => rfl
theorem be64 (a : Addr24) : Statement (.be64 a) := fun _ => rfl
theorem ce : Statement .ce := fun _ => rfl
theorem mount (a l : Word) (d : Bytes) : Statement (.mount a l d) := fun _ => encodeCommand_head .mount a l d
theorem read (a l : Word) (d : Bytes) : Statement (.read a l d) := fun _ => encodeCommand_head .read a l d
theorem write (a l : Word) (d : Bytes) : Statement (.write a l d) := fun _ => encodeCommand_head .write a l d
theorem erase (a l : Word) (d : Bytes) : Statement (.erase a l d) := fun _ => encodeCommand_head .erase a l d
theorem eraseAll (a l : Word) (d : Bytes) : Statement (.eraseAll a l d) := fun _ => encodeCommand_head .eraseAll a l d
theorem checkParam (a l : Word) (d : Bytes) : Statement (.checkParam a l d) :=
  fun _ => encodeCommand_head .checkParam a l d
theorem readStatus (a l : Word) (d : Bytes) : Statement (.readStatus a l d) :=
  fun _ => encodeCommand_head .readStatus a l d
theorem waitUntilReady (a l : Word) (d : Bytes) : Statement (.waitUntilReady a l d) :=
  fun _ => encodeCommand_head .waitUntilReady a l d
theorem writeEnable (a l : Word) (d : Bytes) : Statement (.writeEnable a l d) :=
  fun _ => encodeCommand_head .writeEnable a l d
theorem writeDisable (a l : Word) (d : Bytes) : Statement (.writeDisable a l d) :=
  fun _ => encodeCommand_head .writeDisable a l d
theorem volatileStatusWriteEnable (a l : Word) (d : Bytes) : Statement (.volatileStatusWriteEnable a l d) :=
  fun _ => encodeCommand_head .volatileStatusWriteEnable a l d
theorem readJedec (a l : Word) (d : Bytes) : Statement (.readJedec a l d) := fun _ => encodeCommand_head .readJedec a l d
theorem pageProgram (a l : Word) (d : Bytes) : Statement (.pageProgram a l d) :=
  fun _ => encodeCommand_head .pageProgram a l d
theorem sectorErase (a l : Word) (d : Bytes) : Statement (.sectorErase a l d) :=
  fun _ => encodeCommand_head .sectorErase a l d
theorem blockErase64k (a l : Word) (d : Bytes) : Statement (.blockErase64k a l d) :=
  fun _ => encodeCommand_head .blockErase64k a l d
theorem blockErase32k (a l : Word) (d : Bytes) : Statement (.blockErase32k a l d) :=
  fun _ => encodeCommand_head .blockErase32k a l d

end Laws.EncodeHead
end Sys2Proof
end

