-- ==== Sys2Proof/Laws/Run.lean ====
section
/-! SUPPORT. The laws of runs and of the step: what `step` is in each of its cases, and how runs compose. -/

namespace Sys2Proof.Machine

@[simp] theorem run_zero (s : State) : run 0 s = .next s := rfl

theorem core_run_next (M : Host.Core) (k : Nat) (s t : M.State) (h : M.step s = .next t) :
    M.run (k + 1) s = M.run k t := by
  rw [Host.Core.run, h]

theorem core_run_first (M : Host.Core) (k : Nat) (s u : M.State) (h : M.run (k + 1) s = .next u) :
    ∃ t, M.step s = .next t ∧ M.run k t = .next u := by
  rw [Host.Core.run] at h
  split at h
  · exact ⟨_, ‹_›, h⟩
  · cases h
  · cases h

/-- A run starts with one step. -/
theorem run_succ (k : Nat) (s t : State) (h : step s = .next t) : run (k + 1) s = run k t :=
  core_run_next Sys2Proof.core k s t h

/-- A run that answers a next state has a first step that does. -/
theorem run_first (k : Nat) (s u : State) (h : run (k + 1) s = .next u) : ∃ t, step s = .next t ∧ run k t = .next u :=
  core_run_first Sys2Proof.core k s u h

/-- Runs compose. -/
theorem run_add (j k : Nat) (s t : State) (h : run j s = .next t) : run (j + k) s = run k t := by
  induction j generalizing s with
  | zero => cases h; simp
  | succ j ih =>
    obtain ⟨v, hv, hr⟩ := run_first j s t h
    rw [show j + 1 + k = (j + k) + 1 by omega, run_succ _ _ _ hv]
    exact ih v hr

theorem Reaches.refl (s : State) (Q : State → Prop) (h : Q s) : Reaches s Q := ⟨0, s, rfl, h⟩

/-- One step, then on. -/
theorem Reaches.step (s t : State) (Q : State → Prop) (h : step s = .next t) (ht : Reaches t Q) : Reaches s Q := by
  obtain ⟨k, u, hu, hq⟩ := ht
  exact ⟨k + 1, u, (run_succ k s t h).trans hu, hq⟩

/-- A reached state, then on. -/
theorem Reaches.trans (s : State) (P Q : State → Prop) (h : Reaches s P) (hq : ∀ t, P t → Reaches t Q) : Reaches s Q := by
  obtain ⟨j, t, ht, hp⟩ := h
  obtain ⟨k, u, hu, hu'⟩ := hq t hp
  exact ⟨j + k, u, (run_add j k s t ht).trans hu, hu'⟩

/-! ### Lists of port uses -/

/-- How many of a list of port uses are transfers: as many free-value indices they take. -/
def xfersOf (l : List PortReq) : Nat :=
  l.countP (fun q => match q with
    | .xfer _ => true
    | .delay _ => false)

theorem Chip.played_append (c : Chip) (l m : List PortReq) : c.played (l ++ m) = (c.played l).played m := by
  induction l generalizing c with
  | nil => rfl
  | cons q l ih => cases q <;> exact ih _

/-- The events of two lists of port uses, one after the other. -/
theorem playBus_append (c : Chip) (k : Nat) (l m : List PortReq) :
    playBus c k (l ++ m) = playBus c k l ++ playBus (c.played l) (k + xfersOf l) m := by
  induction l generalizing c k with
  | nil => rfl
  | cons q l ih =>
    cases q with
    | delay ms => simpa [playBus, Chip.played, xfersOf] using ih c k
    | xfer req =>
      have := ih (c.after req) (k + 1)
      simp only [xfersOf] at this
      simp [playBus, Chip.played, xfersOf, this, Nat.add_assoc, Nat.add_comm]

@[simp] theorem chunkStart_zero (a : Word) : chunkStart a 0 = 0 := by simp [chunkStart]

/-- Every call after the first starts on a page boundary (R202). -/
theorem chunkStart_succ (a : Word) (i : Nat) : chunkStart a (i + 1) = (256 - a.toNat % 256) + 256 * i := by
  unfold chunkStart; omega

/-- With no reset to come, a step advances the block. -/
theorem step_advance (s : State) (h : s.resets = []) : step s = advance s := by simp [step, tick, h]

/-- With nothing on a port, the top record is stepped. -/
theorem step_routine (s : State) (r : Record) (rest : List Record) (h : s.resets = []) (hp : s.port = none)
    (hr : s.ph = r :: rest) : step s = routineStep r rest s := by simp [step, tick, advance, h, hp, hr]

/-- An outstanding delay returns. -/
theorem step_delay (s : State) (ms : Nat) (h : s.resets = []) (hp : s.port = some (.delay ms)) :
    step s = .next (State.emit { s with port := none } (.delay ms)) := by simp [step, tick, advance, portStep, h, hp]

/-- An outstanding transfer is performed. -/
theorem step_xfer (s : State) (req : Bytes) (i : Instr) (h : s.resets = []) (hp : s.port = some (.xfer req))
    (hd : decodeFrame req = .ok i) : step s = exec i { s with port := none } := by
  simp [step, tick, advance, portStep, h, hp, hd]

/-! ### What a completed transfer and a host request can do -/

/-- A frame decodes to a wire instruction. -/
theorem decodeFrame_isWire (b : Bytes) (i : Instr) (h : decodeFrame b = .ok i) : isWire i = true := by
  have w1 : ∀ op (j : Instr) rest, isWire j = true → decodeW1 op j rest = .ok i → isWire i = true := by
    intro op j rest hj h; cases rest <;> cases h; exact hj
  have wf : ∀ op (j : Instr) k rest, isWire j = true → decodeFill op j k rest = .ok i → isWire i = true := by
    intro op j k rest hj h; unfold decodeFill at h; split at h <;> (try split at h) <;> cases h; exact hj
  have wa : ∀ op mk mask rest, (∀ a, isWire (mk a) = true) → decodeWA op mk mask rest = .ok i → isWire i = true := by
    intro op mk mask rest hj h; unfold decodeWA at h; split at h <;> (try split at h) <;> cases h; exact hj _
  have wap : ∀ op rest, decodeWAP op rest = .ok i → isWire i = true := by
    intro op rest h; unfold decodeWAP at h; split at h <;> (try split at h) <;> cases h; rfl
  have war : ∀ op rest, decodeWAR op rest = .ok i → isWire i = true := by
    intro op rest h; unfold decodeWAR at h; split at h <;> (try split at h) <;> (try split at h) <;> cases h <;> rfl
  have pick : ∀ (c : Prop) [Decidable c] (x y : Except DecodeError Instr), (if c then x else y) = .ok i →
      x = .ok i ∨ y = .ok i := by
    intro c _ x y h; by_cases hc : c
    · rw [if_pos hc] at h; exact .inl h
    · rw [if_neg hc] at h; exact .inr h
  cases b with
  | nil => cases h
  | cons op rest =>
    unfold decodeFrame at h
    iterate 3 (rcases pick _ _ _ h with h | h; · exact w1 _ _ _ rfl h)
    iterate 3 (rcases pick _ _ _ h with h | h; · exact wf _ _ _ _ rfl h)
    rcases pick _ _ _ h with h | h; · exact war _ _ h
    rcases pick _ _ _ h with h | h; · exact wap _ _ h
    iterate 3 (rcases pick _ _ _ h with h | h; · exact wa _ _ _ _ (fun _ => rfl) h)
    rcases pick _ _ _ h with h | h; · exact w1 _ _ _ rfl h
    cases h

/-- What a wire instruction that answers a next state can do: `BE32` ends the operation, every other one is its
transaction and at most a capture. -/
theorem exec_wire_cases (i : Instr) (s t : State) (hw : isWire i = true) (h : exec i s = .next t) :
    (∃ a, i = .be32 a ∧ t = s.raise .unimplemented) ∨
    ((∀ a, i ≠ .be32 a) ∧ ∃ sr1 sr2 jedec rbuf fb,
      t = { s.exchange (frameOf i) with sr1 := sr1, sr2 := sr2, jedec := jedec, rbuf := rbuf, fb := fb }) := by
  cases i <;> first
    | exact (Bool.false_ne_true hw).elim
    | (cases h; exact .inl ⟨_, rfl, rfl⟩)
    | (cases h; exact .inr ⟨nofun, s.sr1, s.sr2, s.jedec, s.rbuf, s.fb, rfl⟩)
    | (cases h; exact .inr ⟨nofun, _, s.sr2, s.jedec, s.rbuf, s.fb, rfl⟩)
    | (cases h; exact .inr ⟨nofun, s.sr1, _, s.jedec, s.rbuf, s.fb, rfl⟩)
    | (cases h; exact .inr ⟨nofun, s.sr1, s.sr2, _, s.rbuf, s.fb, rfl⟩)
    | (cases h; exact .inr ⟨nofun, s.sr1, s.sr2, s.jedec, s.rbuf, _, rfl⟩)
    | (simp only [exec, execDataRead] at h
       split at h
       · cases h
       · cases h; exact .inr ⟨nofun, s.sr1, s.sr2, s.jedec, _, s.fb, rfl⟩)

/-- The meaning of a host operation is its acceptance. -/
theorem exec_instr (op : HostOp) (a l : Word) (d : Bytes) (s : State) :
    exec (op.instr a l d) s = s.accept op a l d := by cases op <;> rfl

/-- What the host's next move can do in IDLE (R262): nothing, a `Cmd`, a `Cfg`, or a register read. -/
theorem hostStep_cases (s t : State) (h : hostStep s = .next t) :
    (s.host = [] ∧ t = s) ∨
    (∃ w d more, s.host = .cmd w d :: more ∧
      State.accept { s with host := more } (opOfCode (w.extractLsb' 64 4)) (w.extractLsb' 32 32) (w.extractLsb' 0 32) d
        = .next t) ∨
    (∃ v more, s.host = .cfg v :: more ∧ t = State.configure { s with host := more } v) ∨
    (∃ i more, s.host = .readReg i :: more ∧ t = State.answerRead { s with host := more } i) := by
  unfold hostStep at h
  split at h
  · cases h; exact .inl ⟨‹_›, rfl⟩
  · rename_i w d more hm
    rw [decodeCommand, exec_instr] at h
    exact .inr (.inl ⟨w, d, more, hm, h⟩)
  · cases h; exact .inr (.inr (.inl ⟨_, _, ‹_›, rfl⟩))
  · cases h; exact .inr (.inr (.inr ⟨_, _, ‹_›, rfl⟩))

/-- What one step of the machine can be: a `Reset`, or an advance of the block with the reset input counted down. -/
theorem step_cases (s t : State) (h : step s = .next t) :
    (∃ later, s.resets = 0 :: later ∧ t = State.resetEvent { s with resets := later }) ∨
    (∃ later, s.resets.head? ≠ some 0 ∧ advance { s with resets := later } = .next t) := by
  unfold step tick at h
  split at h
  · rename_i h0
    exact .inr ⟨s.resets, by simp [h0], h⟩
  · cases h; exact .inl ⟨_, ‹_›, rfl⟩
  · rename_i h0
    exact .inr ⟨_, by simp [h0], h⟩

end Sys2Proof.Machine
end

