-- ==== Sys2Proof/Tests/Slice0.lean ====
section
/-! SUPPORT. Tests: ill-formed terms are refused, every constructor's decoding on a word written out from the spec, one
step of each instruction family with results taken from 95_test_vectors.md, and for every obligation with hypotheses a
concrete state and operands that meet them. -/

namespace Sys2Proof.Tests

open Sys2Proof Sys2Proof.Machine

/-! ### Well-formedness: one ill-formed term for each check -/

theorem test_wf_refuses_empty_data_read : (Instr.dataRead 0#24 0#32).wf = false := by decide
theorem test_wf_refuses_unsent_address_bits : (Instr.dataRead 0x000100#24 2#32).wf = false := by decide
theorem test_wf_refuses_payload_over_the_page : (Instr.pp 0x0000FF#24 [0x11#8, 0x22#8]).wf = false := by decide
theorem test_wf_refuses_unaligned_sector : (Instr.se 0x012ABC#24).wf = false := by decide
theorem test_wf_refuses_unaligned_block : (Instr.be64 0x012000#24).wf = false := by decide
theorem test_wf_refuses_short_write_data : (Instr.write 0#32 2#32 [0x11#8]).wf = false := by decide
theorem test_wf_refuses_long_page_data : (Instr.pageProgram 0#32 0#32 [0x11#8]).wf = false := by decide
theorem test_wf_admits_page_end : (Instr.pp 0x0000FF#24 [0x77#8]).wf = true := by decide

/-- The default table has nine rising ids, doubling capacities and exactly one entry of 8192 pages (R183). -/
theorem test_default_table_ok : IdTable.default.ok = true := by decide
theorem test_table_refuses_equal_ids : IdTable.idsAscend [(0x4011#16, 512), (0x4011#16, 1024)] = false := by decide
theorem test_table_refuses_other_steps : IdTable.pagesDouble [(0x4011#16, 512), (0x4012#16, 1536)] = false := by decide
theorem test_table_refuses_partial_block : IdTable.pagesInRange [(0x4011#16, 100)] = false := by decide
theorem test_table_refuses_eight_entries : IdTable.ok (IdTable.default.drop 1) = false := by decide

/-! ### Decoding: words written out bit by bit (R112 to R124, R130, R131) -/

theorem test_decode_wren : decode (.frame [0b00000110#8]) = .ok .wren := by rfl
theorem test_decode_wrdi : decode (.frame [0b00000100#8]) = .ok .wrdi := by rfl
theorem test_decode_vsrwe : decode (.frame [0b01010000#8]) = .ok .vsrwe := by rfl
theorem test_decode_rdsr1 : decode (.frame [0b00000101#8, 0b00000000#8]) = .ok .rdsr1 := by rfl
theorem test_decode_rdsr2 : decode (.frame [0b00110101#8, 0b00000000#8]) = .ok .rdsr2 := by rfl
theorem test_decode_jedecid : decode (.frame [0b10011111#8, 0#8, 0#8, 0#8]) = .ok .jedecid := by rfl
/-- V58. -/
theorem test_decode_dataRead : decode (.frame [0b00000011#8, 0x1F#8, 0xFF#8, 0xFC#8, 0#8, 0#8, 0#8, 0#8]) =
    .ok (.dataRead 0x1FFFFC#24 8#32) := by rfl
/-- V57: a truncated header. -/
theorem test_decode_short_dataRead : decode (.frame [0b00000011#8, 0x12#8]) = .ok (.dataRead 0x120000#24 2#32) := by rfl
/-- V41. -/
theorem test_decode_pp : decode (.frame [0b00000010#8, 0x00#8, 0x00#8, 0xFE#8, 0x01#8, 0x02#8]) =
    .ok (.pp 0x0000FE#24 [0x01#8, 0x02#8]) := by rfl
/-- V60. -/
theorem test_decode_se : decode (.frame [0b00100000#8, 0x01#8, 0x20#8, 0x00#8]) = .ok (.se 0x012000#24) := by rfl
theorem test_decode_be32 : decode (.frame [0b01010010#8, 0x00#8, 0x80#8, 0x00#8]) = .ok (.be32 0x008000#24) := by rfl
/-- V61. -/
theorem test_decode_be64 : decode (.frame [0b11011000#8, 0x01#8, 0x00#8, 0x00#8]) = .ok (.be64 0x010000#24) := by rfl
theorem test_decode_ce : decode (.frame [0b11000111#8]) = .ok .ce := by rfl

theorem test_decode_mount : decode (.command 0x00000000000000000#68 []) = .ok (.mount 0#32 0#32 []) := by rfl
/-- P1: `read 0x000000, 260`. -/
theorem test_decode_read : decode (.command 0x10000000000000104#68 []) = .ok (.read 0#32 0x104#32 []) := by rfl
theorem test_decode_write : decode (.command 0x2000000FA00000002#68 [0x11#8, 0x22#8]) =
    .ok (.write 0xFA#32 2#32 [0x11#8, 0x22#8]) := by rfl
/-- P3: `erase 0x1000, 0x3000`. -/
theorem test_decode_erase : decode (.command 0x30000100000003000#68 []) = .ok (.erase 0x1000#32 0x3000#32 []) := by rfl
theorem test_decode_eraseAll : decode (.command 0x40000000000000000#68 []) = .ok (.eraseAll 0#32 0#32 []) := by rfl
theorem test_decode_checkParam : decode (.command 0x5001FFFFF00000100#68 []) =
    .ok (.checkParam 0x1FFFFF#32 0x100#32 []) := by rfl
theorem test_decode_readStatus : decode (.command 0x60000000000000000#68 []) = .ok (.readStatus 0#32 0#32 []) := by rfl
theorem test_decode_waitUntilReady : decode (.command 0x70000000000000000#68 []) =
    .ok (.waitUntilReady 0#32 0#32 []) := by rfl
theorem test_decode_writeEnable : decode (.command 0x80000000000000000#68 []) = .ok (.writeEnable 0#32 0#32 []) := by rfl
theorem test_decode_writeDisable : decode (.command 0x90000000000000000#68 []) = .ok (.writeDisable 0#32 0#32 []) := by rfl
theorem test_decode_volatileStatusWriteEnable : decode (.command 0xA0000000000000000#68 []) =
    .ok (.volatileStatusWriteEnable 0#32 0#32 []) := by rfl
theorem test_decode_readJedec : decode (.command 0xB0000000000000000#68 []) = .ok (.readJedec 0#32 0#32 []) := by rfl
/-- V42. -/
theorem test_decode_pageProgram : decode (.command 0xC000000FF00000001#68 [0x77#8]) =
    .ok (.pageProgram 0xFF#32 1#32 [0x77#8]) := by rfl
theorem test_decode_sectorErase : decode (.command 0xD00012ABC00000000#68 []) =
    .ok (.sectorErase 0x012ABC#32 0#32 []) := by rfl
theorem test_decode_blockErase64k : decode (.command 0xE00012ABC00000000#68 []) =
    .ok (.blockErase64k 0x012ABC#32 0#32 []) := by rfl
theorem test_decode_blockErase32k : decode (.command 0xF0000800000000000#68 []) =
    .ok (.blockErase32k 0x8000#32 0#32 []) := by rfl

theorem test_decode_refuses_empty : decode (.frame []) = .error .emptyFrame := by rfl
theorem test_decode_refuses_opcode : decode (.frame [0xAB#8]) = .error (.unknownOpcode 0xAB#8) := by rfl
theorem test_decode_refuses_length : decode (.frame [0x06#8, 0x00#8]) = .error (.badLength 0x06#8) := by rfl
theorem test_decode_refuses_fill : decode (.frame [0x05#8, 0x01#8]) = .error (.badFill 0x05#8) := by rfl
theorem test_decode_refuses_unaligned : decode (.frame [0x20#8, 0x01#8, 0x2A#8, 0xBC#8]) =
    .error (.unaligned 0x20#8) := by rfl

/-! ### Words of the opcode table -/

theorem test_table_word_wren : decodeTableWord 8 0x06 = some .wren := by rfl
theorem test_table_word_se : decodeTableWord 8 0x20 = some (.se 0#24) := by rfl
theorem test_table_word_command : decodeTableWord 72 0xB0000000000000000 = some (.readJedec 0#32 0#32 []) := by rfl
theorem test_fetch_word_frame : (State.reset.withFetchWord 8 0x06).port = some (.xfer [0x06#8]) := by rfl
theorem test_fetch_word_command : (State.reset.withFetchWord 72 0x70000000000000000).host =
    [.cmd 0x70000000000000000#68 []] := by rfl

/-! ### States -/

/-- The reference device of 95_test_vectors.md, with busy count 1 (D0(1)). -/
def dev : Device := Device.fresh 0x200000 0x40#8 0x15#8 1

/-- A mounted block on the device `d`. -/
def mounted (d : Device) : State :=
  { State.reset with valid := true, model := 4#4, size := 8192#32, jedec := 0xFFEF4015#32, chip := .d0 d }

/-- An idle mounted block. -/
def idle : State := mounted dev

/-- A mounted block on a device with the write-enable latch set. -/
def latched : State := mounted { dev with wel := true }

/-- In `write`, four calls deep: the first status frame of the wait is on the port. -/
def polling : State :=
  { idle with ph := [⟨.readStatus, 2⟩, ⟨.waitUntilReady, 3⟩, ⟨.pageProgram, 2⟩, ⟨.host .write, 6⟩],
              port := some (.xfer [0x05#8, 0x00#8]) }

/-- In `sector_erase`, the erase frame about to be sent, the write-enable done. -/
def erasing : State :=
  { latched with ph := [⟨.sectorErase, 3⟩, ⟨.host .sectorErase, 3⟩],
                 trace := [.xfer [0x06#8] [0xFF#8], .delay 1] }

/-- A mounted block with a limit of 2 on a device with `b` busy answers to come (V21). -/
def limited (b : Nat) : State := { mounted { dev with bsy := b } with pollLimit := 2#32 }

/-- The answer of a frame as the trace shows it. -/
def lastEvent (r : Result) : Option Event :=
  match r with
  | .next t => t.trace.getLast?
  | _ => none

/-! ### One step of each family -/

/-- V10: only byte 1 of the status answer is kept. -/
theorem test_rdsr1_keeps_byte_one :
    ∃ t, exec .rdsr1 { idle with chip := .unknown [[0xA5#8, 0x03#8]] } = .next t ∧ t.sr1 = 0x03#8 := ⟨_, rfl, by rfl⟩
theorem test_rdsr2_keeps_byte_one :
    ∃ t, exec .rdsr2 { idle with chip := .unknown [[0x5A#8, 0x40#8]] } = .next t ∧ t.sr2 = 0x40#8 := ⟨_, rfl, by rfl⟩
/-- V34: the artifact is stored. -/
theorem test_jedec_keeps_four_bytes :
    ∃ t, exec .jedecid { idle with chip := .unknown [[0x00#8, 0xEF#8, 0x40#8, 0x15#8]] } = .next t ∧
      t.jedec = 0x00EF4015#32 := ⟨_, rfl, by rfl⟩
/-- R99: the device answers artifact, producer id and device id. -/
theorem test_jedec_of_device : lastEvent (exec .jedecid idle) =
    some (.xfer [0x9F#8, 0#8, 0#8, 0#8] [0xFF#8, 0xEF#8, 0x40#8, 0x15#8]) := by rfl
/-- V27: after a write-enable frame the device shows the latch in bit 1. -/
theorem test_status_shows_latch : lastEvent (exec .rdsr1 latched) =
    some (.xfer [0x05#8, 0x00#8] [0xFF#8, 0x02#8]) := by rfl
/-- V42: programming the last byte of a page. -/
theorem test_pp_last_byte_of_page :
    ∃ t, exec (.pp 0x0000FF#24 [0x77#8]) latched = .next t ∧ t.flashByte 0xFF = some 0x77#8 ∧
      t.flashByte 0 = some 0xFF#8 := ⟨_, rfl, by rfl, by rfl⟩
/-- R101: programming is the AND of old and new. -/
theorem test_pp_is_and :
    ∃ t, exec (.pp 0#24 [0x0F#8]) (mounted { dev with wel := true, mem := [(0, 0x3C#8)] }) = .next t ∧
      t.flashByte 0 = some 0x0C#8 := ⟨_, rfl, by rfl⟩
/-- V60: the sector of 0x012000 and nothing else. -/
theorem test_se_erases_its_sector :
    ∃ t, exec (.se 0x012000#24)
        (mounted { dev with wel := true, mem := [(0x11FFF, 0#8), (0x12000, 0#8), (0x12FFF, 0#8), (0x13000, 0#8)] }) = .next t ∧
      t.chip = .d0 { dev with mem := [(0x11FFF, 0#8), (0x13000, 0#8)], bsy := 1 } := ⟨_, rfl, by rfl⟩
/-- V57: the device ignores a truncated read. -/
theorem test_short_read : lastEvent (exec (.dataRead 0#24 2#32) idle) =
    some (.xfer [0x03#8, 0x00#8] [0xFF#8, 0xFF#8]) := by rfl
/-- R122, R224: the 32K erase ends with `Unimplemented`, code 0xA in `RESULT`. -/
theorem test_be32_is_unimplemented : ∃ t, exec (.be32 0#24) polling = .next t ∧ t.result = 0xA#4 ∧ t.ph = [] :=
  ⟨_, rfl, by rfl, by rfl⟩
/-- V70: a refused internal operation. -/
theorem test_refused : ∃ t, exec (.readStatus 0#32 0#32 [])
      { idle with params := { Params.default with exposeInternal := false } } = .next t ∧ t.ph = [⟨.refusal, 1⟩] ∧
    ∃ u, step t = .next u ∧ u.result = 0xC#4 ∧ u.ph = [] := ⟨_, rfl, by rfl, _, rfl, by rfl, by rfl⟩
/-- V8: the sum of the range check does not wrap; V4, V5: the slack. -/
theorem test_range_check : idle.paramsValid 0x100#32 0xFFFFFFFF#32 = false ∧ idle.paramsValid 0x1FFFFF#32 256#32 = true ∧
    idle.paramsValid 0x1FFFFF#32 257#32 = false ∧ idle.paramsValid 0#32 0#32 = false := by decide
/-- V41, V44, V46. -/
theorem test_clip : clip 8#32 0xFE#32 = 2#32 ∧ clip 300#32 0x100#32 = 256#32 ∧ clip 0#32 0x20#32 = 0#32 := by decide
/-- V53: `write 0x000010` of 600 bytes makes three calls, of 240, 256 and 104 bytes. V52: the second byte's frame. -/
theorem test_chunks : chunkCount 0x10#32 600 = 3 ∧ chunkStart 0x10#32 1 = 240 ∧ chunkStart 0x10#32 2 = 496 ∧
    chunkFrame 0xFF#32 [0xAA#8, 0xBB#8] 1 = [0x02#8, 0x00#8, 0x01#8, 0x00#8, 0xBB#8] := by decide
/-- R55: a `Reset` in the middle of a wait. -/
theorem test_reset_event : ∃ t, step { polling with resets := [0] } = .next t ∧ t.ph = [] ∧ t.port = none ∧
    t.valid = false := ⟨_, rfl, by rfl, by rfl, by rfl⟩

/-! ### Witnesses: what the hypotheses of the obligations ask can be met

For each obligation with hypotheses a theorem of its name; `clause` names say which clause or boundary is meant. -/

theorem witness_DecodeReadsBackEncode : (Instr.dataRead 0xFF0000#24 2#32).wf = true := by decide
theorem witness_EncodeWritesBackDecode : decode (.frame [0x06#8]) = .ok .wren := by rfl
theorem witness_UnknownOpcodeIsRefused : 0xAB#8 ∉
    [0x06#8, 0x04#8, 0x50#8, 0x05#8, 0x35#8, 0x9F#8, 0x03#8, 0x02#8, 0x20#8, 0x52#8, 0xD8#8, 0xC7#8] := by decide
theorem witness_StepPerformsTheFrame : polling.resets = [] ∧ polling.port = some (.xfer [0x05#8, 0x00#8]) ∧
    decodeFrame [0x05#8, 0x00#8] = .ok .rdsr1 := ⟨rfl, rfl, rfl⟩

/-- An idle block whose host asks for a sector erase. -/
def asking : State := { idle with host := [.cmd 0xD00012ABC00000000#68 []] }
/-- An idle block whose host writes `POLL_LIMIT`. -/
def configuring : State := { idle with host := [.cfg 3#32] }
/-- An idle block whose host reads a register. -/
def readingReg (i : BitVec 4) : State := { idle with host := [.readReg i] }

theorem witness_StepTakesTheCommand : asking.Quiet ∧ asking.host = [.cmd 0xD00012ABC00000000#68 []] := by decide
theorem witness_ResetEventActsAtAnyTime_xfer : { polling with resets := [0] }.resets = 0 :: [] ∧
    polling.port = some (.xfer [0x05#8, 0x00#8]) ∧ polling.chip = .d0 dev := by decide
theorem witness_ResetEventActsAtAnyTime_idle : { idle with resets := [0] }.resets = 0 :: [] ∧
    ∀ req, idle.port ≠ some (.xfer req) := ⟨rfl, nofun⟩
theorem witness_ResetEventActsAtAnyTime_unknown : { State.reset with resets := [0, 2] }.resets = 0 :: [2] ∧
    State.reset.chip = .unknown [] := ⟨rfl, rfl⟩

theorem idle_handle : idle.HandleOk :=
  ⟨nofun, fun _ => ⟨by decide, 0x4015#16, by rfl⟩⟩

theorem witness_HandleStaysConsistent : idle.params.idTable.ok = true ∧ idle.HandleOk ∧ ∃ t, step idle = .next t :=
  ⟨by decide, idle_handle, _, rfl⟩

theorem polling_phase : polling.PhaseOk := by
  refine ⟨by decide, fun q hq => ⟨⟨.readStatus, 2⟩, _, rfl, Or.inl ⟨rfl, ?_⟩⟩⟩
  simp only [polling, Option.some.injEq] at hq
  exact hq ▸ rfl

theorem witness_PhaseStackStaysLegal : polling.PhaseOk ∧ ∃ t, step polling = .next t := ⟨polling_phase, _, rfl⟩
theorem witness_PhaseStackIsAtMostFourDeep : legalStack polling.ph = true ∧ polling.ph.length = 4 := by decide

theorem polling_frames : polling.FramesOk := by
  refine ⟨?_, ?_, ?_, ?_⟩
  · intro b hb
    simp only [polling, Option.some.injEq, PortReq.xfer.injEq] at hb
    subst hb; rfl
  · exact fun _ _ h => (List.not_mem_nil h).elim
  · exact nofun
  · exact nofun

theorem polling_host : polling.HostOk := fun _ _ h => (List.not_mem_nil h).elim

theorem witness_MachineNeverStopsAndSendsGoodFrames : polling.PhaseOk ∧ polling.FramesOk ∧ polling.HostOk :=
  ⟨polling_phase, polling_frames, polling_host⟩
theorem witness_SentFramesStartWithElevenOpcodes : blockFrame [0xD8#8, 0x01#8, 0x00#8, 0x00#8] = true := by decide

theorem erasing_phase : erasing.PhaseOk := ⟨by decide, nofun⟩

theorem erasing_bracket : erasing.BracketOk := by
  refine ⟨?_, ?_, ?_, ?_⟩
  · intro before req resp after h hm
    exfalso
    have hmem : Event.xfer req resp ∈ erasing.trace := by rw [h]; simp
    simp only [erasing, List.mem_cons, Event.xfer.injEq, List.not_mem_nil, reduceCtorEq, or_false] at hmem
    rw [hmem.1] at hm
    exact absurd hm (by decide)
  · exact nofun
  · intro r rest _ _; rfl
  · exact nofun

theorem witness_MutatingFramesStayBracketed : erasing.PhaseOk ∧ erasing.BracketOk ∧ ∃ t, step erasing = .next t :=
  ⟨erasing_phase, erasing_bracket, _, rfl⟩
theorem witness_DeviceMemoryStaysCanonical : latched.ChipOk ∧ ∃ t, step latched = .next t :=
  ⟨by intro d hd; simp only [latched, mounted, Chip.d0.injEq] at hd; subst hd; decide, _, rfl⟩
theorem witness_OnlyMountAndResetChangeTheHandle : (∃ t, step polling = .next t) ∧ polling.resets.head? ≠ some 0 ∧
    ∀ k rest, polling.ph ≠ ⟨.host .mount, k⟩ :: rest := ⟨⟨_, rfl⟩, by decide, nofun⟩
theorem witness_OnlyCfgAndResetChangeThePollLimit : configuring.resets.head? ≠ some 0 ∧
    ∃ t, step configuring = .next t ∧ t.pollLimit ≠ configuring.pollLimit := ⟨by decide, _, rfl, by decide⟩
theorem witness_HostWaitsWhileAnOperationRuns : (∃ t, step polling = .next t) ∧ ¬ polling.Idle := ⟨⟨_, rfl⟩, by decide⟩
theorem witness_EachStepHasAtMostOneBusEvent : ∃ t, step polling = .next t := ⟨_, rfl⟩
theorem witness_GateFramesOnlySendTheirOpcode : (Instr.wrdi, 0x04#8) ∈
    [(Instr.wren, 0x06#8), (Instr.wrdi, 0x04#8), (Instr.vsrwe, 0x50#8)] := by decide
theorem witness_DataReadFrameFillsTheReadBuffer : 0#32 = 0#32 ∧ (1#32 : Word) ≠ 0#32 := by decide
theorem witness_EraseFramesCarryMaskedAddresses : (Instr.se 0x012ABC#24, [0x20#8, 0x01#8, 0x20#8, 0x00#8]) ∈
    [(Instr.se 0x012ABC#24, [0x20#8] ++ addrBytes (0x012ABC#24 &&& 0xFFF000#24)),
     (Instr.be64 0x012ABC#24, [0xD8#8] ++ addrBytes (0x012ABC#24 &&& 0xFF0000#24)), (Instr.ce, [0xC7#8])] := by decide
theorem witness_DeviceLatchAndStatus : idle.chip = .d0 dev ∧ dev.bsy = 0 ∧ (limited 1).chip = .d0 { dev with bsy := 1 } := by
  decide
theorem witness_DeviceProgramsWithinThePage : latched.chip = .d0 { dev with wel := true } ∧
    { dev with wel := true }.wf = true ∧ { dev with wel := true }.bsy = 0 ∧ { dev with wel := true }.wel = true ∧
    [0x11#8, 0x22#8] ≠ [] ∧ [0x11#8, 0x22#8].length ≤ 256 ∧ idle.chip = .d0 dev ∧ dev.wf = true ∧ dev.bsy = 0 ∧
    dev.wel = false := by decide
theorem witness_DeviceErasesItsUnit : latched.chip = .d0 { dev with wel := true } ∧ { dev with wel := true }.bsy = 0 ∧
    { dev with wel := true }.wel = true := by decide
theorem witness_DeviceIgnoresFrames_latch_clear : idle.chip = .d0 dev ∧ encode .ce = .frame [0xC7#8] ∧ Instr.ce.wf = true ∧
    dev.wel = false ∧ mutatingFrame [0xC7#8] = true := by decide
theorem witness_DeviceIgnoresFrames_busy : (mounted { dev with bsy := 1 }).chip = .d0 { dev with bsy := 1 } ∧
    encode .wren = .frame [0x06#8] ∧ Instr.wren.wf = true ∧ { dev with bsy := 1 }.bsy ≠ 0 := by decide
theorem witness_AcceptanceStartsTheRoutine : idle.Idle ∧ idle.Accepts .write ∧
    wfCmdData .write 1#32 [0x11#8] = true := by decide

/-- A block that does not expose the internal operations. -/
def closedBlock : State := { idle with params := { Params.default with exposeInternal := false } }

theorem witness_InternalOperationIsRefused : closedBlock.Quiet ∧ HostOp.readStatus.internal = true ∧
    closedBlock.params.exposeInternal = false ∧ wfCmdData .readStatus 0#32 [] = true := by decide
theorem witness_BrokenHostContractStops_running : ¬ polling.Idle := by decide
theorem witness_BrokenHostContractStops_data : idle.Idle ∧ ([] : Bytes).length ≠ (1#32 : Word).toNat := by decide
theorem witness_CfgWritesThePollLimit : configuring.Quiet ∧ configuring.host = [.cfg 3#32] := by decide
theorem witness_RegisterReadAnswersTheNumber (i : BitVec 4) : (readingReg i).Quiet ∧ (readingReg i).host = [.readReg i] :=
  ⟨⟨rfl, rfl, rfl⟩, rfl⟩
theorem witness_RangeCheckMakesTheFourTests : idle.paramsValid 0x1FFFFF#32 256#32 = true := by decide
theorem witness_ClipStaysInThePage : 1 ≤ (8#32 : Word).toNat ∧
    { idle with p := 2#32, wbuf := [1#8, 2#8] }.p = clip 8#32 0xFE#32 ∧
    { idle with p := 2#32, wbuf := [1#8, 2#8] }.off.toNat + (2#32 : Word).toNat ≤ [1#8, 2#8].length := by decide

/-! Operations: the block is idle and mounted on the device. -/

theorem idle_range_ok : rangeOk idle.valid idle.size 0x1FFFFF#32 256#32 := ⟨rfl, by decide, by decide, by decide⟩
theorem idle_range_bad : ¬ rangeOk idle.valid idle.size 0x200000#32 1#32 := fun h => absurd h.2.2.1 (by decide)

theorem witness_CheckParamAnswersTheCheck : idle.Quiet ∧ idle.Accepts .checkParam ∧
    rangeOk idle.valid idle.size 0x1FFFFF#32 256#32 ∧ ¬ rangeOk idle.valid idle.size 0x200000#32 1#32 :=
  ⟨by decide, by decide, idle_range_ok, idle_range_bad⟩
theorem witness_ReadStatusReturnsBothRegisters : idle.Quiet ∧ idle.Accepts .readStatus := by decide
theorem witness_GateOperationsSendTheirOpcode : idle.Quiet ∧ idle.Accepts .volatileStatusWriteEnable ∧
    (HostOp.volatileStatusWriteEnable, 0x50#8) ∈
      [(HostOp.writeEnable, 0x06#8), (.writeDisable, 0x04#8), (.volatileStatusWriteEnable, 0x50#8)] := by decide
theorem witness_ReadJedecReturnsFourBytes : idle.Quiet ∧ idle.Accepts .readJedec := by decide

/-- An unmounted block whose chip answers the identification frame with the four bytes. -/
def answering (b0 b1 b2 b3 : Byte) : State := { State.reset with chip := .unknown [[b0, b1, b2, b3]] }

/-- V31: the last entry of the table. -/
theorem witness_MountSetsTheHandle : (answering 0xFF#8 0xEF#8 0x40#8 0x19#8).Quiet ∧
    (answering 0xFF#8 0xEF#8 0x40#8 0x19#8).response [0x9F#8, 0x00#8, 0x00#8, 0x00#8] = [0xFF#8, 0xEF#8, 0x40#8, 0x19#8] ∧
    IdTable.default[8]? = some (0x40#8 ++ 0x19#8, 131072) ∧
    ∀ j e, j < 8 → IdTable.default[j]? = some e → e.1 ≠ (0x40#8 ++ 0x19#8 : BitVec 16) := by
  refine ⟨⟨rfl, rfl, rfl⟩, rfl, rfl, ?_⟩
  intro j e hj he
  interval_cases j <;> cases he <;> decide
/-- V32. -/
theorem witness_MountFailureClearsTheHandle_manufacturer : (answering 0xFF#8 0x00#8 0x40#8 0x15#8).Quiet ∧
    (answering 0xFF#8 0x00#8 0x40#8 0x15#8).response [0x9F#8, 0x00#8, 0x00#8, 0x00#8] = [0xFF#8, 0x00#8, 0x40#8, 0x15#8] ∧
    (0x00#8 : Byte) ≠ 0xEF#8 := ⟨⟨rfl, rfl, rfl⟩, rfl, by decide⟩
/-- V33. -/
theorem witness_MountFailureClearsTheHandle_device : (answering 0xFF#8 0xEF#8 0x40#8 0x1A#8).Quiet ∧
    (answering 0xFF#8 0xEF#8 0x40#8 0x1A#8).response [0x9F#8, 0x00#8, 0x00#8, 0x00#8] = [0xFF#8, 0xEF#8, 0x40#8, 0x1A#8] ∧
    ∀ e, e ∈ IdTable.default → e.1 ≠ (0x40#8 ++ 0x1A#8 : BitVec 16) := ⟨⟨rfl, rfl, rfl⟩, rfl, by decide⟩

theorem witness_ReadReturnsTheWholeAnswer : idle.Quiet ∧ rangeOk idle.valid idle.size 0x1FFFFF#32 256#32 ∧
    idle.chip = .d0 dev ∧ dev.bsy = 0 := ⟨by decide, idle_range_ok, rfl, rfl⟩
theorem witness_FailedCheckSendsNothing : idle.Quiet ∧ idle.Accepts .sectorErase ∧
    rangeFails idle .read 0x200000#32 1#32 ∧ rangeFails idle .erase 1#32 1#32 ∧ rangeFails idle .erase 0#32 0x200001#32 ∧
    rangeFails idle .sectorErase 0x200000#32 0#32 ∧ rangeFails idle .blockErase64k 0x200000#32 0#32 ∧
    rangeFails State.reset .eraseAll 0#32 0#32 := by
  refine ⟨by decide, by decide, .inl ⟨.inl rfl, idle_range_bad⟩, .inr (.inl ⟨rfl, .inl (by decide)⟩),
    .inr (.inl ⟨rfl, .inr (by decide)⟩), .inr (.inr (.inl ⟨rfl, by decide⟩)),
    .inr (.inr (.inr (.inl ⟨rfl, by decide⟩))), .inr (.inr (.inr (.inr ⟨rfl, rfl⟩)))⟩
theorem witness_BlockErase32kIsUnimplemented : idle.Quiet ∧ idle.Accepts .blockErase32k := by decide
theorem witness_WaitReturnsAtOnceOnAReadyChip : idle.Quiet ∧ idle.Accepts .waitUntilReady ∧
    ((idle.chip.answer idle.free [0x05#8, 0x00#8]).getD 1 0#8).getLsbD 0 = false := by decide
theorem witness_PageProgramMakesItsElevenEvents : idle.Quiet ∧ idle.Accepts .pageProgram ∧
    [0x11#8, 0x22#8].length = (2#32 : Word).toNat ∧ 1 = min (2#32 : Word).toNat (256 - (0xFF#32 : Word).toNat % 256) ∧
    ((idle.chip.answer idle.free [0x05#8, 0x00#8]).getD 1 0#8).getLsbD 0 = false := by decide

/-- A mounted block on a device that is never busy (D0(0)). -/
def swift : State := mounted { dev with k := 0 }

theorem swift_sector : ¬ rangeFails swift .sectorErase 0x1FFFFF#32 0#32 := by
  simp only [rangeFails, reduceCtorEq, false_and, true_and, or_false, false_or]; decide
theorem swift_block : ¬ rangeFails swift .blockErase64k 0x1FFFFF#32 0#32 := by
  simp only [rangeFails, reduceCtorEq, false_and, true_and, or_false, false_or]; decide
theorem swift_chip : ¬ rangeFails swift .eraseAll 0#32 0#32 := by
  simp only [rangeFails, reduceCtorEq, false_and, true_and, or_false, false_or]; decide
theorem idle_range_erase : ¬ rangeFails idle .erase 0x001FFF#32 0x002001#32 := by
  simp only [rangeFails, reduceCtorEq, false_and, true_and, or_false, false_or]; decide

theorem witness_EraseOperationsMakeTheirElevenEvents : swift.Quiet ∧ swift.Accepts .blockErase64k ∧
    ¬ rangeFails swift .sectorErase 0x1FFFFF#32 0#32 ∧ ¬ rangeFails swift .blockErase64k 0x1FFFFF#32 0#32 ∧
    ¬ rangeFails swift .eraseAll 0#32 0#32 ∧
    ((((swift.chip.after [0x06#8]).after [0xC7#8]).answer (swift.free + 2) [0x05#8, 0x00#8]).getD 1 0#8).getLsbD 0 = false :=
  ⟨by decide, by decide, swift_sector, swift_block, swift_chip, by decide⟩

theorem witness_WaitPollsUntilTheDeviceIsReady : (limited 1).Quiet ∧ (limited 1).Accepts .waitUntilReady ∧
    (limited 1).chip = .d0 { dev with bsy := 1 } ∧ waitEnds (limited 1).pollLimit 1 ∧ waitEnds idle.pollLimit 1 :=
  ⟨by decide, by decide, rfl, .inr (by decide), .inl rfl⟩
theorem witness_WaitTimesOutAtTheLimit_wait : (limited 2).Quiet ∧ (limited 2).Accepts .waitUntilReady ∧
    (limited 2).chip = .d0 { dev with bsy := 2 } ∧ 1 ≤ (limited 2).pollLimit.toNat ∧ (limited 2).pollLimit.toNat ≤ 2 := by
  decide

/-- A mounted block with a limit of 1 on D0(1). -/
def strict : State := { idle with pollLimit := 1#32 }

/-- In `page_program` of a `write` that has sent `6` bytes, the wait about to start, the device busy (V5A). -/
def waiting : State :=
  { strict with ph := [⟨.waitUntilReady, 1⟩, ⟨.pageProgram, 2⟩, ⟨.host .write, 6⟩], cnt := 6#32,
                chip := .d0 { dev with bsy := 1 } }

theorem witness_WaitTimesOutAtTheLimit_routine : waiting.resets = [] ∧ waiting.port = none ∧
    waiting.ph = ⟨.waitUntilReady, 1⟩ :: [⟨.pageProgram, 2⟩, ⟨.host .write, 6⟩] ∧ waiting.chip = .d0 { dev with bsy := 1 } ∧
    1 ≤ waiting.pollLimit.toNat ∧ waiting.pollLimit.toNat ≤ { dev with bsy := 1 }.bsy := by decide
theorem witness_WaitTimesOutAtTheLimit_first_call : (limited 2).Quiet ∧ (limited 2).Accepts .pageProgram ∧
    (limited 2).Accepts .write ∧ [0xAA#8, 0xBB#8].length = (2#32 : Word).toNat ∧
    rangeOk (limited 2).valid (limited 2).size 0xFF#32 2#32 ∧ (limited 2).chip = .d0 { dev with bsy := 2 } ∧
    1 ≤ (limited 2).pollLimit.toNat ∧ (limited 2).pollLimit.toNat ≤ 2 :=
  ⟨by decide, by decide, by decide, rfl, ⟨rfl, by decide, by decide, by decide⟩, rfl, by decide, by decide⟩
/-- V5A, with two bytes of data. -/
theorem witness_WaitTimesOutAtTheLimit_second_call : strict.Quiet ∧ [0xAA#8, 0xBB#8].length = (2#32 : Word).toNat ∧
    rangeOk strict.valid strict.size 0xFF#32 2#32 ∧ strict.chip = .d0 dev ∧ dev.bsy < strict.pollLimit.toNat ∧
    strict.pollLimit.toNat ≤ dev.k ∧ 1 = 256 - (0xFF#32 : Word).toNat % 256 ∧ 1 < (2#32 : Word).toNat :=
  ⟨by decide, rfl, ⟨rfl, by decide, by decide, by decide⟩, rfl, by decide, by decide, by decide, by decide⟩

/-- In `erase`, the loop at the last sector of the chip. -/
def eraseLoop : State := { strict with ph := [⟨.host .erase, 3⟩], cur := 0x1FF000#32, len := 0x200000#32 }

theorem witness_TimeoutLeavesTheEraseUnclosed_loop : eraseLoop.resets = [] ∧ eraseLoop.port = none ∧
    eraseLoop.ph = [⟨.host .erase, 3⟩] ∧ eraseLoop.chip = .d0 dev ∧ dev.bsy = 0 ∧
    eraseLoop.cur.toNat < eraseLoop.len.toNat ∧ eraseLoop.cur.toNat / 4096 < eraseLoop.size.toNat / 16 ∧
    1 ≤ eraseLoop.pollLimit.toNat ∧ eraseLoop.pollLimit.toNat ≤ dev.k := by decide
theorem witness_TimeoutLeavesTheEraseUnclosed : strict.Quiet ∧ strict.Accepts .sectorErase ∧
    strict.Accepts .blockErase64k ∧ strict.Accepts .eraseAll ∧ strict.Accepts .erase ∧ strict.chip = .d0 dev ∧
    dev.bsy = 0 ∧ ¬ rangeFails strict .sectorErase 0x1FFFFF#32 0#32 ∧ ¬ rangeFails strict .blockErase64k 0x1FFFFF#32 0#32 ∧
    ¬ rangeFails strict .eraseAll 0#32 0#32 ∧ ¬ rangeFails strict .erase 0x001FFF#32 0x002001#32 ∧
    strict.size.toNat % 16 = 0 ∧ 1 ≤ strict.pollLimit.toNat ∧ strict.pollLimit.toNat ≤ dev.k :=
  ⟨by decide, by decide, by decide, by decide, by decide, rfl, rfl, swift_sector, swift_block, swift_chip,
    idle_range_erase, by decide, by decide, by decide⟩

/-- A block without a limit on a chip that answers busy `n` times. -/
def stuck (n : Nat) : State := { State.reset with chip := .unknown (List.replicate n [0xFF#8, 0x01#8]) }

theorem witness_WaitHangsOnABusyChip (n : Nat) : (stuck n).Quiet ∧ (stuck n).Accepts .waitUntilReady ∧
    (stuck n).pollLimit = 0#32 ∧ (stuck n).chip = .unknown (List.replicate n [0xFF#8, 0x01#8]) :=
  ⟨⟨rfl, rfl, rfl⟩, .inr rfl, rfl, rfl⟩
theorem witness_PageProgramProgramsTheDevice : idle.Quiet ∧ idle.Accepts .pageProgram ∧ idle.chip = .d0 dev ∧
    dev.wf = true ∧ waitEnds idle.pollLimit dev.bsy ∧ [0x11#8, 0x22#8].length = (2#32 : Word).toNat :=
  ⟨by decide, by decide, rfl, by decide, .inl rfl, rfl⟩
theorem idle_write_ok : rangeOk idle.valid idle.size 0xFF#32 2#32 := ⟨rfl, by decide, by decide, by decide⟩
theorem witness_WriteProgramsEveryByte : idle.Quiet ∧ [0xAA#8, 0xBB#8].length = (2#32 : Word).toNat ∧
    rangeOk idle.valid idle.size 0xFF#32 2#32 ∧ idle.chip = .d0 dev ∧ dev.wf = true ∧ waitEnds idle.pollLimit dev.bsy ∧
    waitEnds idle.pollLimit dev.k ∧ (0xFF#32 : Word).toNat + (2#32 : Word).toNat ≤ dev.cap ∧
    (0xFF#32 : Word).toNat + (2#32 : Word).toNat ≤ 2 ^ 24 :=
  ⟨by decide, rfl, idle_write_ok, rfl, by decide, .inl rfl, .inl rfl, by decide, by decide⟩
theorem witness_EraseOperationsEraseTheirUnit : idle.Quiet ∧ idle.Accepts .sectorErase ∧ idle.chip = .d0 dev ∧
    dev.bsy = 0 ∧ waitEnds idle.pollLimit dev.k ∧ ¬ rangeFails idle .sectorErase 0x1FFFFF#32 0#32 ∧
    ¬ rangeFails idle .blockErase64k 0x1FFFFF#32 0#32 ∧ ¬ rangeFails idle .eraseAll 0#32 0#32 :=
  ⟨by decide, by decide, rfl, rfl, .inl rfl, swift_sector, swift_block, swift_chip⟩
/-- V66: two bytes in two sectors, of which the stride erases one. -/
theorem witness_EraseRangeStridesOverTheSectors : idle.Quiet ∧ idle.chip = .d0 dev ∧ dev.bsy = 0 ∧ dev.wf = true ∧
    waitEnds idle.pollLimit dev.k ∧ ¬ rangeFails idle .erase 0x001FFF#32 0x002001#32 ∧ idle.size.toNat % 16 = 0 ∧
    idle.size.toNat ≤ 2 ^ 23 ∧ (0x002001#32 : Word).toNat ≤ dev.cap ∧ (0x002001#32 : Word).toNat ≤ 2 ^ 24 :=
  ⟨by decide, rfl, rfl, by decide, .inl rfl, idle_range_erase, by decide, by decide, by decide, by decide⟩

/-- An idle block whose host writes two bytes over a page boundary, waits, and reads six. -/
def writing : State :=
  { idle with host := [.cmd (commandWord .write 0xFF#32 2#32) [0xAA#8, 0xBB#8],
                       .cmd (commandWord .waitUntilReady 0#32 0#32) [], .cmd (commandWord .read 0xFF#32 6#32) []] }

theorem witness_WriteWaitReadReturnsTheData : writing.Quiet ∧ writing.params.exposeInternal = true ∧
    rangeOk writing.valid writing.size 0xFF#32 2#32 ∧ rangeOk writing.valid writing.size 0xFF#32 6#32 ∧
    writing.chip = .d0 dev ∧ dev.wf = true ∧ (∀ i, i < (2#32 : Word).toNat → dev.mem.read (0xFF + i) = 0xFF#8) ∧
    waitEnds writing.pollLimit dev.bsy ∧ waitEnds writing.pollLimit dev.k ∧
    [0xAA#8, 0xBB#8].length = (2#32 : Word).toNat ∧ (6#32 : Word).toNat = (2#32 : Word).toNat + 4 ∧
    (0xFF#32 : Word).toNat + (2#32 : Word).toNat ≤ dev.cap ∧ (0xFF#32 : Word).toNat + (2#32 : Word).toNat ≤ 2 ^ 24 :=
  ⟨by decide, rfl, idle_write_ok, ⟨rfl, by decide, by decide, by decide⟩, rfl, by decide, fun _ _ => rfl, .inl rfl,
    .inl rfl, rfl, rfl, by decide, by decide⟩

end Sys2Proof.Tests
end

section
/-! The frames of the block read back (R110 to R124, R127): the frame of a well-formed wire instruction decodes to that
instruction, so it is a frame that the block may send. -/

namespace Sys2Proof.Machine

/-! ### Addresses and masks -/

/-- An address whose two low bytes are clear is its upper byte alone. -/
theorem joinAddr_upper_byte {a : Addr24} (h : a &&& 0xFF0000#24 = a) : joinAddr (a.extractLsb' 16 8) 0#8 0#8 = a := by
  have h8 : a.extractLsb' 8 8 = 0#8 := by rw [← h, BitVec.extractLsb'_and]; exact BitVec.and_zero
  have h0 : a.extractLsb' 0 8 = 0#8 := by rw [← h, BitVec.extractLsb'_and]; exact BitVec.and_zero
  simpa [h8, h0] using joinAddr_extract a

/-- An address whose low byte is clear is its two upper bytes. -/
theorem joinAddr_upper_two {a : Addr24} (h : a &&& 0xFFFF00#24 = a) :
    joinAddr (a.extractLsb' 16 8) (a.extractLsb' 8 8) 0#8 = a := by
  have h0 : a.extractLsb' 0 8 = 0#8 := by rw [← h, BitVec.extractLsb'_and]; exact BitVec.and_zero
  simpa [h0] using joinAddr_extract a

theorem sectorMask_idem (a : Addr24) : sectorMask (sectorMask a) = sectorMask a := by
  simp [sectorMask, BitVec.and_assoc]

theorem block64Mask_idem (a : Addr24) : block64Mask (block64Mask a) = block64Mask a := by
  simp [block64Mask, BitVec.and_assoc]

/-! ### The data-read frame by its length (R119) -/

theorem dataReadFrame_one (a : Addr24) {l : Word} (h : l.toNat = 1) : dataReadFrame a l = [opcDataRead] := by
  simp [dataReadFrame, h]

theorem dataReadFrame_two (a : Addr24) {l : Word} (h : l.toNat = 2) :
    dataReadFrame a l = [opcDataRead, a.extractLsb' 16 8] := by
  simp [dataReadFrame, addrBytes, h]

theorem dataReadFrame_three (a : Addr24) {l : Word} (h : l.toNat = 3) :
    dataReadFrame a l = [opcDataRead, a.extractLsb' 16 8, a.extractLsb' 8 8] := by
  simp [dataReadFrame, addrBytes, h]

theorem dataReadFrame_whole_header (a : Addr24) {l : Word} (h : 4 ≤ l.toNat) :
    dataReadFrame a l = opcDataRead :: (addrBytes a ++ List.replicate (l.toNat - 4) fillByte) := by
  unfold dataReadFrame
  rw [Nat.max_eq_left h, List.take_of_length_le (by simp; omega)]
  rfl

/-- Address bits that the frame does not carry make no difference to it (R119). -/
theorem dataReadFrame_sentMask (a : Addr24) (l : Word) : dataReadFrame (a &&& sentMask l) l = dataReadFrame a l := by
  rcases (by omega : l.toNat = 0 ∨ l.toNat = 1 ∨ l.toNat = 2 ∨ l.toNat = 3 ∨ 4 ≤ l.toNat) with h | h | h | h | h
  · simp [dataReadFrame, h]
  · simp [dataReadFrame_one _ h]
  · have hm : sentMask l = 0xFF0000#24 := by simp [sentMask, h]
    rw [dataReadFrame_two _ h, dataReadFrame_two _ h, hm, BitVec.extractLsb'_and]
    exact congrArg (fun b => [opcDataRead, b]) BitVec.and_allOnes
  · have hm : sentMask l = 0xFFFF00#24 := by simp [sentMask, h]
    rw [dataReadFrame_three _ h, dataReadFrame_three _ h, hm, BitVec.extractLsb'_and, BitVec.extractLsb'_and]
    exact congrArg₂ (fun b c => [opcDataRead, b, c]) BitVec.and_allOnes BitVec.and_allOnes
  · have hm : sentMask l = BitVec.allOnes 24 := by
      simp [sentMask, show ¬ l.toNat ≤ 1 by omega, show l.toNat ≠ 2 by omega, show l.toNat ≠ 3 by omega]
    rw [hm, BitVec.and_allOnes]

/-! ### Decoding a built frame -/

theorem wfDataRead_iff (a : Addr24) (l : Word) : wfDataRead a l = true ↔ l ≠ 0#32 ∧ a &&& sentMask l = a := by
  simp [wfDataRead]

/-- A data-read frame carries its length and every address bit that the check admits (R119, log 21). -/
theorem decodeFrame_dataReadFrame {a : Addr24} {l : Word} (h : wfDataRead a l = true) :
    decodeFrame (dataReadFrame a l) = .ok (.dataRead a l) := by
  obtain ⟨hl, ha⟩ := (wfDataRead_iff a l).1 h
  have hpos : l.toNat ≠ 0 := fun h0 => hl (BitVec.eq_of_toNat_eq h0)
  have hlit : ∀ k : Nat, l.toNat = k → BitVec.ofNat 32 k = l := fun k hk => by simp [← hk]
  rcases (by omega : l.toNat = 1 ∨ l.toNat = 2 ∨ l.toNat = 3 ∨ 4 ≤ l.toNat) with h | h | h | h
  · have h0 : a = 0#24 := by simpa [sentMask, h] using ha.symm
    rw [dataReadFrame_one a h, h0, ← hlit 1 h]
    rfl
  · have hj := joinAddr_upper_byte (a := a) (by simpa [sentMask, h] using ha)
    rw [dataReadFrame_two a h]
    exact congrArg₂ (fun x y => Except.ok (Instr.dataRead x y)) hj (hlit 2 h)
  · have hj := joinAddr_upper_two (a := a) (by simpa [sentMask, h] using ha)
    rw [dataReadFrame_three a h]
    exact congrArg₂ (fun x y => Except.ok (Instr.dataRead x y)) hj (hlit 3 h)
  · have hlen : l.toNat - 4 + 4 = l.toNat := by omega
    have hlt := l.isLt
    have hw : decodeFrame (dataReadFrame a l) =
        decodeWAR opcDataRead (addrBytes a ++ List.replicate (l.toNat - 4) fillByte) := by
      rw [dataReadFrame_whole_header a h]; rfl
    rw [hw]
    simp [decodeWAR, addrBytes, joinAddr_extract, hlen, show ¬ 4294967296 ≤ l.toNat by omega]

theorem decodeFrame_ppFrame (a : Addr24) {d : Bytes} (h : d.length ≤ 256) :
    decodeFrame (frameOf (.pp a d)) = .ok (.pp a d) := by
  have hw : decodeFrame (frameOf (.pp a d)) = decodeWAP opcPp (addrBytes a ++ d) := rfl
  rw [hw]
  simp [decodeWAP, addrBytes, joinAddr_extract, h]

/-- Format `WA` reads back an address that the mask of the format leaves unchanged. -/
theorem decodeWA_addrBytes (op : Byte) (mk : Addr24 → Instr) {mask : Addr24 → Addr24} {a : Addr24} (h : mask a = a) :
    decodeWA op mk mask (addrBytes a) = .ok (mk a) := by
  simp [decodeWA, addrBytes, joinAddr_extract, h]

/-- The frame of a well-formed wire instruction decodes to that instruction. -/
theorem decodeFrame_frameOf {i : Instr} (hw : isWire i = true) (h : i.wf = true) : decodeFrame (frameOf i) = .ok i := by
  cases i with
  | wren | wrdi | vsrwe | rdsr1 | rdsr2 | jedecid | ce => rfl
  | dataRead a l => exact decodeFrame_dataReadFrame h
  | pp a d =>
    simp only [Instr.wf, wfPageProgram, decide_eq_true_eq] at h
    exact decodeFrame_ppFrame a (by omega)
  | se a =>
    have ha : sectorMask a = a := of_decide_eq_true h
    have hf : frameOf (.se a) = opcSe :: addrBytes a := congrArg (fun x => opcSe :: addrBytes x) ha
    rw [hf]
    exact decodeWA_addrBytes opcSe .se ha
  | be64 a =>
    have ha : block64Mask a = a := of_decide_eq_true h
    have hf : frameOf (.be64 a) = opcBe64 :: addrBytes a := congrArg (fun x => opcBe64 :: addrBytes x) ha
    rw [hf]
    exact decodeWA_addrBytes opcBe64 .be64 ha
  | be32 a => exact decodeWA_addrBytes opcBe32 .be32 (mask := id) rfl
  | _ => exact (Bool.false_ne_true hw).elim

/-! ### Frames that the block may send -/

theorem blockFrame_iff (b : Bytes) :
    blockFrame b = true ↔ ∃ i, decodeFrame b = .ok i ∧ i.wf = true ∧ ∀ a, i ≠ .be32 a := by
  unfold blockFrame
  split <;> simp_all

theorem blockFrame_frameOf {i : Instr} (hw : isWire i = true) (h : i.wf = true) (hb : ∀ a, i ≠ .be32 a) :
    blockFrame (frameOf i) = true :=
  (blockFrame_iff _).2 ⟨i, decodeFrame_frameOf hw h, h, hb⟩

theorem blockFrame_gate (g : Gate) : blockFrame g.frame = true := by
  cases g with
  | writeEnable => exact blockFrame_frameOf (i := .wren) rfl rfl nofun
  | writeDisable => exact blockFrame_frameOf (i := .wrdi) rfl rfl nofun
  | volatileStatusWriteEnable => exact blockFrame_frameOf (i := .vsrwe) rfl rfl nofun

/-- The mask of R121 makes every address one of a sector-erase frame. -/
theorem blockFrame_sectorErase (a : Word) : blockFrame (frameOf (.se (sectorAddr a))) = true :=
  blockFrame_frameOf rfl (decide_eq_true (sectorMask_idem _)) nofun

/-- The mask of R123 makes every address one of a 64 KB block-erase frame. -/
theorem blockFrame_blockErase (a : Word) : blockFrame (frameOf (.be64 (blockAddr a))) = true :=
  blockFrame_frameOf rfl (decide_eq_true (block64Mask_idem _)) nofun

/-- A data-read frame of at least one byte is one the block may send, whatever address bits it leaves out (R119). -/
theorem blockFrame_dataRead (a : Addr24) {l : Word} (hl : l ≠ 0#32) : blockFrame (frameOf (.dataRead a l)) = true := by
  have hf : frameOf (.dataRead (a &&& sentMask l) l) = frameOf (.dataRead a l) := dataReadFrame_sentMask a l
  have hwf : wfDataRead (a &&& sentMask l) l = true :=
    (wfDataRead_iff _ _).2 ⟨hl, by rw [BitVec.and_assoc, BitVec.and_self]⟩
  rw [← hf]
  exact blockFrame_frameOf rfl hwf nofun

/-- The clip never reaches beyond the page (R192). -/
theorem clip_le_pageRoom (n cur : Word) : (clip n cur).toNat ≤ pageRoom cur := by
  simp only [clip, BitVec.toNat_ofNat]
  exact (Nat.mod_le _ _).trans (Nat.min_le_right _ _)

/-- A payload that fits the rest of its page makes a frame that the block may send (R120, R192). -/
theorem blockFrame_programFrame {s : State} (h : s.p.toNat ≤ pageRoom s.cur) : blockFrame s.programFrame = true := by
  have ha : (wireAddr s.cur).toNat % 256 = s.cur.toNat % 256 := by simp [wireAddr]
  have hd : (payload s.wbuf s.off s.p).length ≤ s.p.toNat := List.length_take_le _ _
  simp only [pageRoom, pageBytes] at h
  exact blockFrame_frameOf rfl (decide_eq_true (by omega)) nofun

end Sys2Proof.Machine
end

section
/-! The performing of one frame (R9, R119): the frame on the transfer port, and what a data read captures. -/

namespace Sys2Proof.Machine

/-- Settles O5: the law of the step for an outstanding transfer. -/
theorem stepPerformsTheFrame : Obligations.StepPerformsTheFrame := step_xfer

/-- A frame that neither programs nor erases changes no byte of flash memory, whichever chip answers (R291). -/
theorem Chip.read_after (c : Chip) {req : Bytes} (h : mutatingFrame req = false) (x : Nat) :
    (c.after req).read x = c.read x := by
  cases c with
  | unknown answers => rfl
  | d0 d =>
    have hmem : (d.respond req).2.mem = d.mem := by
      obtain ⟨_, hm | ⟨rfl, _⟩ | ⟨op, b2, b1, b0, tail, rfl, ⟨rfl, _⟩ | ⟨rfl, _⟩ | ⟨rfl, _⟩⟩⟩ := Device.respond_cases d req
      · exact hm
      · cases h
      · cases h
      · cases h
      · cases h
    simp only [Chip.after, Chip.read, hmem]

/-- A data-read frame neither programs nor erases. -/
theorem mutatingFrame_dataReadFrame (a : Addr24) (l : Word) : mutatingFrame (dataReadFrame a l) = false := by
  unfold dataReadFrame
  cases l.toNat <;> rfl

/-- A data-read frame of at least one byte is exchanged and its answer captured (R119). -/
theorem exec_dataRead (s : State) (a : Addr24) {l : Word} (h : l ≠ 0#32) : exec (.dataRead a l) s =
    .next { s.exchange (dataReadFrame a l) with rbuf := s.response (dataReadFrame a l) } := if_neg h

/-- Settles O24: the capture of `exec_dataRead`, the lengths of R9, and a frame that mutates nothing. -/
theorem dataReadFrameFillsTheReadBuffer : Obligations.DataReadFrameFillsTheReadBuffer := by
  intro s a l
  refine ⟨fun hl => if_pos hl, fun hl => ⟨dataReadFrame a l, rfl, ?_, _, exec_dataRead s a hl, rfl, fun x => ?_⟩⟩
  · rw [State.response_length, dataReadFrame_length]
  · exact Chip.read_after s.chip (mutatingFrame_dataReadFrame a l) x

end Sys2Proof.Machine
end

section
/-! The steps of the routines (R37, R38): what one numbered step of a routine can do to the phase register and the ports,
said once for every routine. -/

namespace Sys2Proof.Machine

/-! ### Records and stacks -/

theorem Record.inRange_iff (r : Record) : r.inRange = true ↔ 1 ≤ r.step ∧ r.step ≤ r.routine.lastStep := by
  simp [Record.inRange]

/-- Every routine has a first step. -/
theorem Record.inRange_first (rt : Routine) : Record.inRange ⟨rt, 1⟩ = true := by
  cases rt with
  | host op => cases op <;> rfl
  | _ => rfl

/-- The top record is one of its routine's steps. -/
theorem legalStack_inRange {r : Record} {rest : List Record} (h : legalStack (r :: rest) = true) : r.inRange = true := by
  cases rest <;> simp_all [legalStack]

/-- Whether the records below fit the top record depends on its routine only, not on its step. -/
theorem legalStack_at {r : Record} {rest : List Record} {k : Nat} (h : legalStack (r :: rest) = true)
    (hk : Record.inRange ⟨r.routine, k⟩ = true) : legalStack (⟨r.routine, k⟩ :: rest) = true := by
  cases rest <;> simp_all [legalStack]

/-- A call puts the callee on the caller's record (R38c). -/
theorem legalStack_call {rt callee : Routine} {k : Nat} {rest : List Record} (h : legalStack (⟨rt, k⟩ :: rest) = true)
    (hc : rt.callAt (k - 1) = some callee) : legalStack (⟨callee, 1⟩ :: ⟨rt, k⟩ :: rest) = true := by
  simp [legalStack, Record.inRange_first, hc, h]

/-- Below a routine that only calls start, its caller stands at the step after the call (R38d). -/
theorem legalStack_ret {r : Record} {rest : List Record} (h : legalStack (r :: rest) = true)
    (hn : r.routine.isHost = false) : ∃ c below, rest = c :: below ∧ c.routine.callAt (c.step - 1) = some r.routine ∧
      legalStack (c :: below) = true := by
  cases rest with
  | nil => simp [legalStack, hn] at h
  | cons c below =>
    simp only [legalStack, Bool.and_eq_true, decide_eq_true_eq] at h
    obtain ⟨⟨_, hc⟩, hbelow⟩ := h
    exact ⟨c, below, rfl, hc, hbelow⟩

/-! ### The operands of a frame about to be built -/

/-- The operands that the step of a record is about to build a frame from make a frame of the block: the clipped count
before a page-program frame (R192), the checked length before a data-read frame (R119). -/
def State.OperandsOk (s : State) (r : Record) : Prop :=
  (r = ⟨.pageProgram, 4⟩ → s.p.toNat ≤ pageRoom s.cur) ∧ (r = ⟨.host .read, 2⟩ → s.len ≠ 0#32)

/-- The first step of no routine builds a frame from operands. -/
theorem State.operandsOk_first (s : State) (rt : Routine) : s.OperandsOk ⟨rt, 1⟩ := ⟨nofun, nofun⟩

/-- No call returns to a step that builds a frame from operands. -/
theorem State.operandsOk_of_callAt (s : State) {r : Record} {callee : Routine}
    (h : r.routine.callAt (r.step - 1) = some callee) : s.OperandsOk r := by
  constructor <;> rintro rfl <;> cases h

/-- No request returns to a step that builds a frame from operands. -/
theorem State.operandsOk_of_mayAwait (s : State) {r : Record} {q : PortReq} (h : r.mayAwait q) : s.OperandsOk r := by
  constructor <;> rintro rfl <;> simp [Record.mayAwait] at h

/-! ### What a step of a routine can do -/

/-- A step of a routine writes registers only: the ports, the trace and the host's requests are as before. -/
structure State.SamePorts (s u : State) : Prop where
  port : u.port = s.port
  trace : u.trace = s.trace
  host : u.host = s.host

theorem State.SamePorts.refl (s : State) : s.SamePorts s := ⟨rfl, rfl, rfl⟩

/-- The results that the step of the top record `r` can have (R38b to R38f), the records below being `rest`: the routine
goes on, calls, returns, presents a frame, asks for a delay, ends the operation by `Done`, or
raises. A fault is not among them. That a presented frame is one of the block rests on the operands of the step. -/
inductive Moves (s : State) (r : Record) (rest : List Record) : Result → Prop
  | goOn (u : State) (k : Nat) (hu : s.SamePorts u) (hk : Record.inRange ⟨r.routine, k⟩ = true)
      (ho : u.OperandsOk ⟨r.routine, k⟩) : Moves s r rest (.next (u.at r.routine k rest))
  | call (callee : Routine) (k : Nat) (hk : Record.inRange ⟨r.routine, k⟩ = true)
      (hc : r.routine.callAt (k - 1) = some callee) : Moves s r rest (.next (s.call callee r.routine k rest))
  | ret (u : State) (hu : s.SamePorts u) (hn : r.routine.isHost = false) : Moves s r rest (.next (u.ret rest))
  | request (u : State) (k : Nat) (req : Bytes) (hu : s.SamePorts u) (hk : Record.inRange ⟨r.routine, k⟩ = true)
      (hm : Record.mayAwait ⟨r.routine, k⟩ (.xfer req)) (hf : s.OperandsOk r → blockFrame req = true) :
      Moves s r rest (.next ((u.request req).at r.routine k rest))
  | delay (ms k : Nat) (hk : Record.inRange ⟨r.routine, k⟩ = true)
      (hm : Record.mayAwait ⟨r.routine, k⟩ (.delay ms)) :
      Moves s r rest (.next ((s.requestDelay ms).at r.routine k rest))
  | finish (u : State) (rdata : Bytes) (hu : s.SamePorts u) : Moves s r rest (.next (u.finish rdata))
  | raise (u : State) (c : Cause) (hu : s.SamePorts u) : Moves s r rest (.next (u.raise c))

/-- A check: the routine goes on if it passes and raises if it fails, or the other way round (R38b, R38f). -/
theorem Moves.ite {s t u : State} {r : Record} {rest : List Record} {c : Prop} [Decidable c]
    (ht : c → Moves s r rest (.next t)) (hu : ¬ c → Moves s r rest (.next u)) :
    Moves s r rest (.next (if c then t else u)) := by
  split
  · exact ht ‹_›
  · exact hu ‹_›

/-! ### Frames with operands that a record may await -/

theorem mayAwait_programFrame (s : State) : Record.mayAwait ⟨.pageProgram, 5⟩ (.xfer s.programFrame) := by
  simpa [Record.mayAwait] using ⟨_, _, rfl⟩

theorem mayAwait_sectorErase (a : Addr24) : Record.mayAwait ⟨.sectorErase, 4⟩ (.xfer (frameOf (.se a))) := by
  simpa [Record.mayAwait] using ⟨a, rfl⟩

theorem mayAwait_blockErase (a : Addr24) : Record.mayAwait ⟨.blockErase64k, 4⟩ (.xfer (frameOf (.be64 a))) := by
  simpa [Record.mayAwait] using ⟨a, rfl⟩

theorem mayAwait_readFrame (s : State) : Record.mayAwait ⟨.host .read, 3⟩ (.xfer s.readFrame) := by
  simpa [Record.mayAwait] using ⟨_, _, rfl⟩

variable (s : State) (rest : List Record)

/-! ### The routines that other routines call -/

theorem readStatusStep_moves {k : Nat} (h1 : 1 ≤ k) (h2 : k ≤ 5) :
    Moves s ⟨.readStatus, k⟩ rest (readStatusStep k rest s) := by
  interval_cases k
  · exact .request s 2 _ (.refl s) rfl (by simp [Record.mayAwait]) (fun _ => rfl)
  · exact .delay _ 3 rfl (by simp [Record.mayAwait])
  · exact .request s 4 _ (.refl s) rfl (by simp [Record.mayAwait]) (fun _ => rfl)
  · exact .delay _ 5 rfl (by simp [Record.mayAwait])
  · exact .ret s (.refl s) rfl

theorem waitStep_moves {k : Nat} (h1 : 1 ≤ k) (h2 : k ≤ 5) :
    Moves s ⟨.waitUntilReady, k⟩ rest (waitStep k rest s) := by
  interval_cases k
  · exact .goOn _ 2 ⟨rfl, rfl, rfl⟩ rfl ⟨nofun, nofun⟩
  · exact .call _ 3 rfl rfl
  · exact .ite (fun _ => .goOn _ 4 ⟨rfl, rfl, rfl⟩ rfl ⟨nofun, nofun⟩) (fun _ => .ret _ ⟨rfl, rfl, rfl⟩ rfl)
  · exact .ite (fun _ => .raise s _ (.refl s)) (fun _ => .goOn s 5 (.refl s) rfl ⟨nofun, nofun⟩)
  · exact .delay _ 2 rfl (by simp [Record.mayAwait])

theorem gateStep_moves (g : Gate) {k : Nat} (h1 : 1 ≤ k) (h2 : k ≤ 4) :
    Moves s ⟨.gate g, k⟩ rest (gateStep g k rest s) := by
  interval_cases k
  · exact .delay _ 2 rfl (by simp [Record.mayAwait])
  · exact .request s 3 _ (.refl s) rfl (by simp [Record.mayAwait]) (fun _ => blockFrame_gate g)
  · exact .delay _ 4 rfl (by simp [Record.mayAwait])
  · exact .ret s (.refl s) rfl

theorem readJedecStep_moves {k : Nat} (h1 : 1 ≤ k) (h2 : k ≤ 2) :
    Moves s ⟨.readJedec, k⟩ rest (readJedecStep k rest s) := by
  interval_cases k
  · exact .request s 2 _ (.refl s) rfl (by simp [Record.mayAwait]) (fun _ => rfl)
  · exact .ret s (.refl s) rfl

theorem pageProgramStep_moves {k : Nat} (h1 : 1 ≤ k) (h2 : k ≤ 6) :
    Moves s ⟨.pageProgram, k⟩ rest (pageProgramStep k rest s) := by
  interval_cases k
  · exact .call _ 2 rfl rfl
  · exact .call _ 3 rfl rfl
  · exact .goOn _ 4 ⟨rfl, rfl, rfl⟩ rfl ⟨fun _ => clip_le_pageRoom s.n s.cur, nofun⟩
  · exact .request _ 5 s.programFrame ⟨rfl, rfl, rfl⟩ rfl (mayAwait_programFrame s)
      (fun ho => blockFrame_programFrame (ho.1 rfl))
  · exact .call _ 6 rfl rfl
  · exact .ret s (.refl s) rfl

theorem sectorEraseStep_moves {k : Nat} (h1 : 1 ≤ k) (h2 : k ≤ 6) :
    Moves s ⟨.sectorErase, k⟩ rest (sectorEraseStep k rest s) := by
  interval_cases k
  · exact .ite (fun _ => .raise s _ (.refl s)) (fun _ => .goOn s 2 (.refl s) rfl ⟨nofun, nofun⟩)
  · exact .call _ 3 rfl rfl
  · exact .request s 4 _ (.refl s) rfl (mayAwait_sectorErase _) (fun _ => blockFrame_sectorErase s.cur)
  · exact .call _ 5 rfl rfl
  · exact .call _ 6 rfl rfl
  · exact .ret s (.refl s) rfl

theorem blockEraseStep_moves {k : Nat} (h1 : 1 ≤ k) (h2 : k ≤ 6) :
    Moves s ⟨.blockErase64k, k⟩ rest (blockEraseStep k rest s) := by
  interval_cases k
  · exact .ite (fun _ => .raise s _ (.refl s)) (fun _ => .goOn s 2 (.refl s) rfl ⟨nofun, nofun⟩)
  · exact .call _ 3 rfl rfl
  · exact .request s 4 _ (.refl s) rfl (mayAwait_blockErase _) (fun _ => blockFrame_blockErase s.cur)
  · exact .call _ 5 rfl rfl
  · exact .call _ 6 rfl rfl
  · exact .ret s (.refl s) rfl


/-! ### The host operations -/

/-- The length check of R151 passes for no empty range. -/
theorem ne_zero_of_paramsValid {s : State} {a n : Word} (h : s.paramsValid a n = true) : n ≠ 0#32 := by
  rintro rfl
  simp [State.paramsValid] at h

theorem mountStep_moves {k : Nat} (h1 : 1 ≤ k) (h2 : k ≤ 4) :
    Moves s ⟨.host .mount, k⟩ rest (mountStep k rest s) := by
  interval_cases k
  · exact .call _ 2 rfl rfl
  · exact .ite (fun _ => .raise _ _ ⟨rfl, rfl, rfl⟩) (fun _ => .goOn s 3 (.refl s) rfl ⟨nofun, nofun⟩)
  · simp only [mountStep]
    split
    · exact .finish _ _ ⟨rfl, rfl, rfl⟩
    · exact .goOn s 4 (.refl s) rfl ⟨nofun, nofun⟩
  · exact .raise _ _ ⟨rfl, rfl, rfl⟩

theorem readStep_moves {k : Nat} (h1 : 1 ≤ k) (h2 : k ≤ 3) :
    Moves s ⟨.host .read, k⟩ rest (readStep k rest s) := by
  interval_cases k
  · exact .ite (fun hv => .goOn s 2 (.refl s) rfl ⟨nofun, fun _ => ne_zero_of_paramsValid hv⟩)
      (fun _ => .raise s _ (.refl s))
  · exact .request s 3 _ (.refl s) rfl (mayAwait_readFrame s) (fun ho => blockFrame_dataRead _ (ho.2 rfl))
  · exact .finish s _ (.refl s)

theorem writeStep_moves {k : Nat} (h1 : 1 ≤ k) (h2 : k ≤ 6) :
    Moves s ⟨.host .write, k⟩ rest (writeStep k rest s) := by
  interval_cases k
  · exact .ite (fun _ => .goOn s 2 (.refl s) rfl ⟨nofun, nofun⟩) (fun _ => .raise s _ (.refl s))
  · exact .goOn _ 3 ⟨rfl, rfl, rfl⟩ rfl ⟨nofun, nofun⟩
  · exact .ite (fun _ => .finish s _ (.refl s)) (fun _ => .goOn s 4 (.refl s) rfl ⟨nofun, nofun⟩)
  · exact .goOn _ 5 ⟨rfl, rfl, rfl⟩ rfl ⟨nofun, nofun⟩
  · exact .call _ 6 rfl rfl
  · exact .goOn _ 3 ⟨rfl, rfl, rfl⟩ rfl ⟨nofun, nofun⟩

theorem eraseStep_moves {k : Nat} (h1 : 1 ≤ k) (h2 : k ≤ 5) :
    Moves s ⟨.host .erase, k⟩ rest (eraseStep k rest s) := by
  interval_cases k
  · exact .ite (fun _ => .raise s _ (.refl s)) (fun _ => .goOn s 2 (.refl s) rfl ⟨nofun, nofun⟩)
  · exact .goOn _ 3 ⟨rfl, rfl, rfl⟩ rfl ⟨nofun, nofun⟩
  · exact .ite (fun _ => .finish s _ (.refl s)) (fun _ => .goOn s 4 (.refl s) rfl ⟨nofun, nofun⟩)
  · exact .call _ 5 rfl rfl
  · exact .goOn _ 3 ⟨rfl, rfl, rfl⟩ rfl ⟨nofun, nofun⟩

theorem eraseAllStep_moves {k : Nat} (h1 : 1 ≤ k) (h2 : k ≤ 6) :
    Moves s ⟨.host .eraseAll, k⟩ rest (eraseAllStep k rest s) := by
  interval_cases k
  · exact .ite (fun _ => .raise s _ (.refl s)) (fun _ => .goOn s 2 (.refl s) rfl ⟨nofun, nofun⟩)
  · exact .call _ 3 rfl rfl
  · exact .request s 4 _ (.refl s) rfl (by simp [Record.mayAwait]) (fun _ => rfl)
  · exact .call _ 5 rfl rfl
  · exact .call _ 6 rfl rfl
  · exact .finish s _ (.refl s)

theorem checkParamStep_moves {k : Nat} (h1 : 1 ≤ k) (h2 : k ≤ 1) :
    Moves s ⟨.host .checkParam, k⟩ rest (checkParamStep k s) := by
  interval_cases k
  · exact .ite (fun _ => .finish s _ (.refl s)) (fun _ => .raise s _ (.refl s))

theorem readStatusOpStep_moves {k : Nat} (h1 : 1 ≤ k) (h2 : k ≤ 2) :
    Moves s ⟨.host .readStatus, k⟩ rest (readStatusOpStep k rest s) := by
  interval_cases k
  · exact .call _ 2 rfl rfl
  · exact .finish _ _ ⟨rfl, rfl, rfl⟩

theorem waitOpStep_moves {k : Nat} (h1 : 1 ≤ k) (h2 : k ≤ 2) :
    Moves s ⟨.host .waitUntilReady, k⟩ rest (waitOpStep k rest s) := by
  interval_cases k
  · exact .call _ 2 rfl rfl
  · exact .finish s _ (.refl s)

/-- One lemma for the three operations of one gate each (R169, R170, R171). -/
theorem gateOpStep_moves {op : HostOp} {g : Gate} (hc : (Routine.host op).callAt 1 = some (.gate g))
    (hl : (Routine.host op).lastStep = 2) {k : Nat} (h1 : 1 ≤ k) (h2 : k ≤ 2) :
    Moves s ⟨.host op, k⟩ rest (gateOpStep op g k rest s) := by
  interval_cases k
  · exact .call _ 2 (by simp [Record.inRange, hl]) hc
  · exact .finish s _ (.refl s)

theorem readJedecOpStep_moves {k : Nat} (h1 : 1 ≤ k) (h2 : k ≤ 2) :
    Moves s ⟨.host .readJedec, k⟩ rest (readJedecOpStep k rest s) := by
  interval_cases k
  · exact .request s 2 _ (.refl s) rfl (by simp [Record.mayAwait]) (fun _ => rfl)
  · exact .finish _ _ ⟨rfl, rfl, rfl⟩

theorem pageProgramOpStep_moves {k : Nat} (h1 : 1 ≤ k) (h2 : k ≤ 3) :
    Moves s ⟨.host .pageProgram, k⟩ rest (pageProgramOpStep k rest s) := by
  interval_cases k
  · exact .goOn _ 2 ⟨rfl, rfl, rfl⟩ rfl ⟨nofun, nofun⟩
  · exact .call _ 3 rfl rfl
  · exact .finish _ _ ⟨rfl, rfl, rfl⟩

theorem sectorEraseOpStep_moves {k : Nat} (h1 : 1 ≤ k) (h2 : k ≤ 3) :
    Moves s ⟨.host .sectorErase, k⟩ rest (sectorEraseOpStep k rest s) := by
  interval_cases k
  · exact .goOn _ 2 ⟨rfl, rfl, rfl⟩ rfl ⟨nofun, nofun⟩
  · exact .call _ 3 rfl rfl
  · exact .finish s _ (.refl s)

theorem blockEraseOpStep_moves {k : Nat} (h1 : 1 ≤ k) (h2 : k ≤ 3) :
    Moves s ⟨.host .blockErase64k, k⟩ rest (blockEraseOpStep k rest s) := by
  interval_cases k
  · exact .goOn _ 2 ⟨rfl, rfl, rfl⟩ rfl ⟨nofun, nofun⟩
  · exact .call _ 3 rfl rfl
  · exact .finish s _ (.refl s)

theorem blockErase32kStep_moves {k : Nat} (h1 : 1 ≤ k) (h2 : k ≤ 1) :
    Moves s ⟨.host .blockErase32k, k⟩ rest (blockErase32kStep k s) := by
  interval_cases k
  · exact .raise s _ (.refl s)

theorem refusalStep_moves {k : Nat} (h1 : 1 ≤ k) (h2 : k ≤ 1) :
    Moves s ⟨.refusal, k⟩ rest (refusalStep k s) := by
  interval_cases k
  · exact .raise s _ (.refl s)

/-- Every step that a record in range names is one of the moves (R37, R38). -/
theorem routineStep_moves {r : Record} (hr : r.inRange = true) : Moves s r rest (routineStep r rest s) := by
  obtain ⟨rt, k⟩ := r
  obtain ⟨h1, h2⟩ := (Record.inRange_iff _).1 hr
  cases rt with
  | host op =>
    cases op with
    | mount => exact mountStep_moves s rest h1 h2
    | read => exact readStep_moves s rest h1 h2
    | write => exact writeStep_moves s rest h1 h2
    | erase => exact eraseStep_moves s rest h1 h2
    | eraseAll => exact eraseAllStep_moves s rest h1 h2
    | checkParam => exact checkParamStep_moves s rest h1 h2
    | readStatus => exact readStatusOpStep_moves s rest h1 h2
    | waitUntilReady => exact waitOpStep_moves s rest h1 h2
    | writeEnable => exact gateOpStep_moves s rest rfl rfl h1 h2
    | writeDisable => exact gateOpStep_moves s rest rfl rfl h1 h2
    | volatileStatusWriteEnable => exact gateOpStep_moves s rest rfl rfl h1 h2
    | readJedec => exact readJedecOpStep_moves s rest h1 h2
    | pageProgram => exact pageProgramOpStep_moves s rest h1 h2
    | sectorErase => exact sectorEraseOpStep_moves s rest h1 h2
    | blockErase64k => exact blockEraseOpStep_moves s rest h1 h2
    | blockErase32k => exact blockErase32kStep_moves s rest h1 h2
  | readStatus => exact readStatusStep_moves s rest h1 h2
  | waitUntilReady => exact waitStep_moves s rest h1 h2
  | gate g => exact gateStep_moves s rest g h1 h2
  | readJedec => exact readJedecStep_moves s rest h1 h2
  | pageProgram => exact pageProgramStep_moves s rest h1 h2
  | sectorErase => exact sectorEraseStep_moves s rest h1 h2
  | blockErase64k => exact blockEraseStep_moves s rest h1 h2
  | refusal => exact refusalStep_moves s rest h1 h2

end Sys2Proof.Machine
end

section
/-! Progress and frame safety of the whole machine (R127, R195, R262): the phase register, the frames and the host's
contract under every move, every completed request, every acceptance and `Reset`. -/

namespace Sys2Proof.Machine

/-! ### The invariants by their parts -/

/-- What R9 and R127 ask of a trace: every frame is one the block may send, every answer has its length. -/
def GoodTrace (tr : List Event) : Prop :=
  ∀ req resp, Event.xfer req resp ∈ tr → blockFrame req = true ∧ resp.length = req.length

theorem goodTrace_xfer {tr : List Event} {req resp : Bytes} (h : GoodTrace tr) (hf : blockFrame req = true)
    (hl : resp.length = req.length) : GoodTrace (tr ++ [.xfer req resp]) := by
  intro req' resp' hm
  rcases List.mem_append.1 hm with hm | hm
  · exact h req' resp' hm
  · cases List.mem_singleton.1 hm
    exact ⟨hf, hl⟩

/-- An event that is no transfer adds no frame. -/
theorem goodTrace_other {tr : List Event} {e : Event} (h : GoodTrace tr) (he : ∀ req resp, e ≠ .xfer req resp) :
    GoodTrace (tr ++ [e]) := by
  intro req resp hm
  rcases List.mem_append.1 hm with hm | hm
  · exact h req resp hm
  · exact absurd (List.mem_singleton.1 hm).symm (he req resp)

/-- `FramesOk` by its parts: the port, the trace, and the operands of the record on top. -/
theorem State.framesOk_iff (s : State) : s.FramesOk ↔
    (∀ b, s.port = some (.xfer b) → blockFrame b = true) ∧ GoodTrace s.trace ∧
      ∀ r rest, s.ph = r :: rest → s.OperandsOk r := by
  constructor
  · rintro ⟨hport, htrace, hprog, hread⟩
    exact ⟨hport, htrace, fun r rest hph =>
      ⟨fun hr => hprog rest (hr ▸ hph), fun hr => hread rest (hr ▸ hph)⟩⟩
  · rintro ⟨hport, htrace, hop⟩
    exact ⟨hport, htrace, fun rest hph => (hop _ rest hph).1 rfl, fun rest hph => (hop _ rest hph).2 rfl⟩

/-- Everything that the machine keeps: a legal phase register, good frames, and a host that keeps its contract. -/
def State.Sound (s : State) : Prop := s.PhaseOk ∧ s.FramesOk ∧ s.HostOk

/-- In IDLE with nothing on a port only the trace and the host matter. -/
theorem State.Sound.of_idle {t : State} (hph : t.ph = []) (hport : t.port = none) (ht : GoodTrace t.trace)
    (hh : t.HostOk) : t.Sound := by
  refine ⟨⟨by rw [hph]; rfl, ?_⟩, t.framesOk_iff.2 ⟨?_, ht, ?_⟩, hh⟩
  · simp [hport]
  · simp [hport]
  · simp [hph]

/-- While a routine runs and nothing is on a port. -/
theorem State.Sound.of_running {t : State} {r : Record} {rest : List Record} (hph : t.ph = r :: rest)
    (hport : t.port = none) (hl : legalStack (r :: rest) = true) (ho : t.OperandsOk r) (ht : GoodTrace t.trace)
    (hh : t.HostOk) : t.Sound := by
  refine ⟨⟨by rw [hph]; exact hl, ?_⟩, t.framesOk_iff.2 ⟨?_, ht, ?_⟩, hh⟩
  · simp [hport]
  · simp [hport]
  · rintro r' rest' hr
    cases hph.symm.trans hr
    exact ho

/-- While a request of the routine on top is outstanding. -/
theorem State.Sound.of_awaiting {t : State} {r : Record} {rest : List Record} {q : PortReq} (hph : t.ph = r :: rest)
    (hport : t.port = some q) (hl : legalStack (r :: rest) = true) (hm : r.mayAwait q)
    (hf : ∀ b, q = .xfer b → blockFrame b = true) (ht : GoodTrace t.trace) (hh : t.HostOk) : t.Sound := by
  refine ⟨⟨by rw [hph]; exact hl, ?_⟩, t.framesOk_iff.2 ⟨?_, ht, ?_⟩, hh⟩
  · rintro q' hq
    cases hport.symm.trans hq
    exact ⟨r, rest, hph, hm⟩
  · rintro b hb
    cases hport.symm.trans hb
    exact hf b rfl
  · rintro r' rest' hr
    cases hph.symm.trans hr
    exact t.operandsOk_of_mayAwait hm

/-- A step that does not stop and keeps everything. -/
def Continues (x : Result) : Prop := ∃ t, x = .next t ∧ t.Sound

/-! ### A step of a routine -/

theorem State.SamePorts.goodTrace {s u : State} (hu : s.SamePorts u) (ht : GoodTrace s.trace) : GoodTrace u.trace :=
  hu.trace ▸ ht

theorem State.SamePorts.hostOk {s u : State} (hu : s.SamePorts u) (hh : s.HostOk) : u.HostOk :=
  fun w d hc => hh w d (hu.host ▸ hc)

/-- Every move of the phase register keeps the machine sound (R38). -/
theorem Moves.continues {s : State} {r : Record} {rest : List Record} {x : Result} (h : s.Sound) (hph : s.ph = r :: rest)
    (hport : s.port = none) (hm : Moves s r rest x) : Continues x := by
  obtain ⟨⟨hl, _⟩, hframes, hh⟩ := h
  obtain ⟨_, ht, hop⟩ := s.framesOk_iff.1 hframes
  rw [hph] at hl
  have ho : s.OperandsOk r := hop r rest hph
  cases hm with
  | goOn u k hu hk hou =>
    exact ⟨_, rfl, .of_running rfl (hu.port.trans hport) (legalStack_at hl hk) hou (hu.goodTrace ht) (hu.hostOk hh)⟩
  | call callee k hk hc =>
    exact ⟨_, rfl, .of_running rfl hport (legalStack_call (legalStack_at hl hk) hc) (State.operandsOk_first _ _) ht hh⟩
  | ret u hu hn =>
    obtain ⟨c, below, rfl, hc, hbelow⟩ := legalStack_ret hl hn
    exact ⟨_, rfl, .of_running rfl (hu.port.trans hport) hbelow (State.operandsOk_of_callAt _ hc)
      (hu.goodTrace ht) (hu.hostOk hh)⟩
  | request u k req hu hk hmay hf =>
    exact ⟨_, rfl, .of_awaiting rfl rfl (legalStack_at hl hk) hmay (fun b hb => by cases hb; exact hf ho)
      (hu.goodTrace ht) (hu.hostOk hh)⟩
  | delay ms k hk hmay =>
    exact ⟨_, rfl, .of_awaiting rfl rfl (legalStack_at hl hk) hmay nofun ht hh⟩
  | finish u rdata hu =>
    exact ⟨_, rfl, .of_idle rfl (hu.port.trans hport) (goodTrace_other (hu.goodTrace ht) nofun) (hu.hostOk hh)⟩
  | raise u c hu => exact ⟨_, rfl, .of_idle rfl rfl (goodTrace_other (hu.goodTrace ht) nofun) (hu.hostOk hh)⟩

/-! ### The return of a request -/

/-- A well-formed wire instruction is performed; only a data read of no bytes would stop (R9, R119). -/
theorem exec_wire_next {i : Instr} (hw : isWire i = true) (h : i.wf = true) (s : State) : ∃ t, exec i s = .next t := by
  cases i with
  | dataRead a l =>
    obtain ⟨hl, _⟩ := (wfDataRead_iff a l).1 h
    exact ⟨_, exec_dataRead s a hl⟩
  | wren | wrdi | vsrwe | rdsr1 | rdsr2 | jedecid | pp | se | be32 | be64 | ce => exact ⟨_, rfl⟩
  | _ => exact (Bool.false_ne_true hw).elim

/-- The outstanding request returns, and the routine on top goes on (R9, R10). -/
theorem portStep_continues {s : State} {q : PortReq} (h : s.Sound) (hport : s.port = some q) :
    Continues (portStep q s) := by
  obtain ⟨⟨hl, hawait⟩, hframes, hh⟩ := h
  obtain ⟨hgood, ht, hop⟩ := s.framesOk_iff.1 hframes
  obtain ⟨r, rest, hph, _⟩ := hawait q hport
  have ho : s.OperandsOk r := hop r rest hph
  rw [hph] at hl
  cases q with
  | delay ms => exact ⟨_, rfl, .of_running hph rfl hl ho (goodTrace_other ht nofun) hh⟩
  | xfer b =>
    obtain ⟨i, hd, hwf, hb⟩ := (blockFrame_iff b).1 (hgood b hport)
    have hw := decodeFrame_isWire b i hd
    obtain ⟨t, hx⟩ := exec_wire_next hw hwf { s with port := none }
    have hp : portStep (.xfer b) s = .next t := by simp only [portStep, hd, hx]
    rcases exec_wire_cases i _ t hw hx with ⟨a, ha, _⟩ | ⟨_, sr1, sr2, jedec, rbuf, fb, rfl⟩
    · exact absurd ha (hb a)
    · exact ⟨_, hp, .of_running hph rfl hl ho
        (goodTrace_xfer ht (blockFrame_frameOf hw hwf hb) (State.response_length _ _)) hh⟩

/-! ### The host's move and the whole step -/

/-- A host that keeps its contract keeps it for its later requests. -/
theorem State.HostOk.tail {s : State} {req : HostReq} {more : List HostReq} (h : s.HostOk) (hs : s.host = req :: more) :
    ∀ w d, HostReq.cmd w d ∈ more → (decodeCommand w d).wf = true :=
  fun w d hm => h w d (hs ▸ List.mem_cons_of_mem req hm)

/-- Acceptance in IDLE of a `Cmd` that keeps the contract starts a routine or the refusal (R38a, R133). -/
theorem State.accept_continues {s : State} {op : HostOp} {a l : Word} {d : Bytes} (hph : s.ph = []) (hport : s.port = none)
    (hd : wfCmdData op l d = true) (ht : GoodTrace s.trace) (hh : s.HostOk) : Continues (s.accept op a l d) := by
  have starts : ∀ rt : Routine, rt.isHost = true → ((s.latch op a l d).at rt 1 []).Sound := fun rt hrt =>
    .of_running rfl hport (by simp [legalStack, Record.inRange_first, hrt]) (State.operandsOk_first _ rt)
      (goodTrace_other ht nofun) hh
  rw [State.accept, if_neg (by simp [hph, hport]), if_neg (by simp [hd])]
  split
  · exact ⟨_, rfl, starts .refusal rfl⟩
  · exact ⟨_, rfl, starts (.host op) rfl⟩

/-- In IDLE the host's next move is taken (R262, R282). -/
theorem hostStep_continues {s : State} (h : s.Sound) (hph : s.ph = []) (hport : s.port = none) :
    Continues (hostStep s) := by
  have ⟨_, hframes, hh⟩ := h
  obtain ⟨_, ht, _⟩ := s.framesOk_iff.1 hframes
  unfold hostStep
  split
  · exact ⟨s, rfl, h⟩
  · rename_i w d more hs
    have hd : (decodeCommand w d).wf = true := hh w d (hs ▸ List.mem_cons_self)
    rw [decodeCommand, wf_instr] at hd
    rw [decodeCommand, exec_instr]
    exact State.accept_continues hph hport hd ht (hh.tail hs)
  · rename_i v more hs
    exact ⟨_, rfl, .of_idle hph hport (goodTrace_other ht nofun) (hh.tail hs)⟩
  · rename_i number more hs
    exact ⟨_, rfl, .of_idle hph hport ht (hh.tail hs)⟩

/-- One step of the block, no reset being due: a request returns, a routine makes a move, or the host does. -/
theorem advance_continues {s : State} (h : s.Sound) : Continues (advance s) := by
  unfold advance
  split
  · exact portStep_continues h ‹_›
  · rename_i hport
    split
    · rename_i r rest hph
      have ⟨⟨hl, _⟩, _, _⟩ := h
      rw [hph] at hl
      exact (routineStep_moves s rest (legalStack_inRange hl)).continues h hph hport
    · exact hostStep_continues h ‹_› hport

/-- One step of the machine: `Reset`, which leaves nothing running, or an advance of the block. -/
theorem step_continues {s : State} (h : s.Sound) : Continues (step s) := by
  unfold step tick
  split
  · exact advance_continues h
  · obtain ⟨_, hframes, hh⟩ := h
    obtain ⟨_, ht, _⟩ := s.framesOk_iff.1 hframes
    exact ⟨_, rfl, .of_idle rfl rfl (goodTrace_other ht nofun) hh⟩
  · exact advance_continues (s := { s with resets := _ }) h

/-- Settles O13: with the three invariants every step goes on (`step_continues`). -/
theorem machineNeverStopsAndSendsGoodFrames : Obligations.MachineNeverStopsAndSendsGoodFrames :=
  fun _ hphase hframes hhost => step_continues ⟨hphase, hframes, hhost⟩

end Sys2Proof.Machine
end

section
/-! What one step can be and what it leaves unchanged (R38), said once: the three cases of an advance, what the return of
a request writes, and what the steps of the routines write. -/

namespace Sys2Proof.Machine

/-! ### The cases of an advance -/

/-- What an advance of the block can be: a request returns, the top record is stepped, or the host moves in IDLE. -/
theorem advance_cases {s t : State} (h : advance s = .next t) :
    (∃ q, s.port = some q ∧ portStep q s = .next t) ∨
    (∃ r rest, s.port = none ∧ s.ph = r :: rest ∧ routineStep r rest s = .next t) ∨
    (s.Idle ∧ hostStep s = .next t) := by
  unfold advance at h
  split at h
  · exact .inl ⟨_, ‹_›, h⟩
  · split at h
    · exact .inr (.inl ⟨_, _, ‹_›, ‹_›, h⟩)
    · exact .inr (.inr ⟨⟨‹_›, ‹_›⟩, h⟩)

/-- What the return of a request can be: the event of a delay, the end of the operation by a `BE32` frame (log 15), or
one transfer with its captures (R9, R10). -/
theorem portStep_cases {s t : State} {q : PortReq} (h : portStep q s = .next t) :
    (∃ ms, q = .delay ms ∧ t = State.emit { s with port := none } (.delay ms)) ∨
    t = State.raise { s with port := none } .unimplemented ∨
    (∃ req i sr1 sr2 jedec rbuf fb, q = .xfer req ∧ decodeFrame req = .ok i ∧
      t = { State.exchange { s with port := none } (frameOf i) with
            sr1 := sr1, sr2 := sr2, jedec := jedec, rbuf := rbuf, fb := fb }) := by
  cases q with
  | delay ms => cases h; exact .inl ⟨ms, rfl, rfl⟩
  | xfer req =>
    cases hd : decodeFrame req with
    | error e => simp [portStep, hd] at h
    | ok i =>
      simp only [portStep, hd] at h
      rcases exec_wire_cases i _ t (decodeFrame_isWire req i hd) h with ⟨_, _, ht⟩ | ⟨_, _, _, _, _, _, ht⟩
      · exact .inr (.inl ht)
      · exact .inr (.inr ⟨req, i, _, _, _, _, _, rfl, hd, ht⟩)

/-! ### What a step leaves unchanged -/

/-- What the host moves and `Reset` alone write is as before, and at most one event is new (R310). -/
structure State.Keeps (s t : State) : Prop where
  host : t.host = s.host
  regOut : t.regOut = s.regOut
  resets : t.resets = s.resets
  params : t.params = s.params
  pollLimit : t.pollLimit = s.pollLimit
  trace : t.trace = s.trace ∨ ∃ e, t.trace = s.trace ++ [e]

/-- The handle is as before (R41). -/
structure State.SameHandle (s t : State) : Prop where
  valid : t.valid = s.valid
  model : t.model = s.model
  size : t.size = s.size

/-- The return of a request writes captures and the trace. -/
theorem portStep_keeps {s t : State} {q : PortReq} (h : portStep q s = .next t) : s.Keeps t ∧ s.SameHandle t := by
  rcases portStep_cases h with ⟨ms, _, rfl⟩ | rfl | ⟨_, _, _, _, _, _, _, _, _, rfl⟩ <;>
    exact ⟨⟨rfl, rfl, rfl, rfl, rfl, .inr ⟨_, rfl⟩⟩, rfl, rfl, rfl⟩

/-! ### What the steps of the routines write -/

/-- Every next state that a result has is one with `P`. -/
def EveryNext (P : State → Prop) (x : Result) : Prop := ∀ t, x = .next t → P t

@[simp] theorem everyNext_next (P : State → Prop) (t : State) : EveryNext P (.next t) ↔ P t :=
  ⟨fun h => h t rfl, fun h u hu => by cases hu; exact h⟩

@[simp] theorem everyNext_fault (P : State → Prop) (f : Fault) : EveryNext P (.fault f) := nofun

@[simp] theorem everyNext_ite (P : State → Prop) (c : Prop) [Decidable c] (x y : Result) :
    EveryNext P (if c then x else y) ↔ (c → EveryNext P x) ∧ (¬ c → EveryNext P y) := by
  split <;> simp [*]

/-- A check has one result per branch. -/
theorem next_ite (c : Prop) [Decidable c] (t u : State) :
    (.next (if c then t else u) : Result) = if c then .next t else .next u := apply_ite _ _ _ _

/-- A step of a routine works inside the block: the chip is reached through the transfer port only, nothing that
`State.Keeps` names is written, and the handle is as before. -/
structure State.Inside (s t : State) : Prop where
  chip : t.chip = s.chip
  keeps : s.Keeps t
  handle : s.SameHandle t

theorem State.inside_iff (s t : State) : s.Inside t ↔
    t.chip = s.chip ∧ (t.host = s.host ∧ t.regOut = s.regOut ∧ t.resets = s.resets ∧ t.params = s.params ∧
      t.pollLimit = s.pollLimit ∧ (t.trace = s.trace ∨ ∃ e, t.trace = s.trace ++ [e])) ∧
    t.valid = s.valid ∧ t.model = s.model ∧ t.size = s.size :=
  ⟨fun ⟨hc, ⟨hh, hr, hs, hp, hl, ht⟩, hv, hm, hz⟩ => ⟨hc, ⟨hh, hr, hs, hp, hl, ht⟩, hv, hm, hz⟩,
    fun ⟨hc, ⟨hh, hr, hs, hp, hl, ht⟩, hv, hm, hz⟩ => ⟨hc, ⟨hh, hr, hs, hp, hl, ht⟩, hv, hm, hz⟩⟩

/-- Every step of a routine other than `mount` stays inside the block. -/
theorem routineStep_inside {r : Record} (hr : r.routine ≠ .host .mount) (s : State) (rest : List Record) :
    EveryNext s.Inside (routineStep r rest s) := by
  obtain ⟨rt, k⟩ := r
  cases rt with
  | host op =>
    cases op with
    | mount => exact (hr rfl).elim
    | read | write | erase | eraseAll | checkParam | pageProgram | sectorErase | blockErase64k | blockErase32k =>
      simp only [routineStep, readStep, writeStep, eraseStep, eraseAllStep, checkParamStep, pageProgramOpStep,
        sectorEraseOpStep, blockEraseOpStep, blockErase32kStep]
      split <;> simp [next_ite, State.inside_iff]
    | readStatus | waitUntilReady | writeEnable | writeDisable | volatileStatusWriteEnable | readJedec =>
      simp only [routineStep, readStatusOpStep, waitOpStep, gateOpStep, readJedecOpStep]
      split <;> simp [State.inside_iff]
  | readStatus | waitUntilReady | gate g | readJedec | pageProgram | sectorErase | blockErase64k | refusal =>
    simp only [routineStep, readStatusStep, waitStep, gateStep, readJedecStep, pageProgramStep, sectorEraseStep,
      blockEraseStep, refusalStep]
    split <;> simp [next_ite, State.inside_iff]

/-- What a step of `mount` does to the handle: nothing, clears it (R186), or sets it to an entry that the scan of
`ID_TABLE` found (R184). -/
inductive State.MountsTo (s t : State) : Prop
  | same (h : s.SameHandle t)
  | cleared (valid : t.valid = false) (model : t.model = 0xF#4) (size : t.size = 0#32)
  | found (device : BitVec 16) (j pages : Nat) (scan : scanTable device 0 s.params.idTable = some (j, pages))
      (valid : t.valid = true) (model : t.model = BitVec.ofNat 4 j) (size : t.size = BitVec.ofNat 32 pages)

/-- The steps of `mount`: inside the block but for the handle. -/
theorem mountStep_mountsTo (s : State) (k : Nat) (rest : List Record) :
    EveryNext (fun t => t.chip = s.chip ∧ s.Keeps t ∧ s.MountsTo t) (mountStep k rest s) := by
  have silent : ∀ j, s.Keeps (s.at (.host .mount) j rest) := fun _ => ⟨rfl, rfl, rfl, rfl, rfl, .inl rfl⟩
  have fails : ∀ c, s.Keeps (s.clearHandle.raise c) := fun _ => ⟨rfl, rfl, rfl, rfl, rfl, .inr ⟨_, rfl⟩⟩
  unfold mountStep
  split
  · exact (everyNext_next _ _).2 ⟨rfl, ⟨rfl, rfl, rfl, rfl, rfl, .inl rfl⟩, .same ⟨rfl, rfl, rfl⟩⟩
  · split
    · exact (everyNext_next _ _).2 ⟨rfl, fails _, .cleared rfl rfl rfl⟩
    · exact (everyNext_next _ _).2 ⟨rfl, silent 3, .same ⟨rfl, rfl, rfl⟩⟩
  · split
    · exact (everyNext_next _ _).2 ⟨rfl, ⟨rfl, rfl, rfl, rfl, rfl, .inr ⟨_, rfl⟩⟩, .found _ _ _ ‹_› rfl rfl rfl⟩
    · exact (everyNext_next _ _).2 ⟨rfl, silent 4, .same ⟨rfl, rfl, rfl⟩⟩
  · exact (everyNext_next _ _).2 ⟨rfl, fails _, .cleared rfl rfl rfl⟩
  · exact everyNext_fault _ _

/-- A step of any routine. -/
theorem routineStep_keeps {s t : State} {r : Record} {rest : List Record} (h : routineStep r rest s = .next t) :
    s.Keeps t ∧ s.MountsTo t := by
  by_cases hr : r.routine = .host .mount
  · obtain ⟨rt, k⟩ := r
    cases hr
    exact (mountStep_mountsTo s k rest t h).2
  · obtain ⟨_, hk, hh⟩ := routineStep_inside hr s rest t h
    exact ⟨hk, .same hh⟩

end Sys2Proof.Machine
end

section
/-! The handle stays consistent with `ID_TABLE` (R41): a scan that finds an entry gives its index and its capacity, and
R183 makes both fit their registers. -/

namespace Sys2Proof.Machine

/-- What the scan of the table finds is an entry, at its index (R184). -/
theorem scanTable_some {id : BitVec 16} {k j pages : Nat} {t : IdTable} (h : scanTable id k t = some (j, pages)) :
    ∃ i, j = k + i ∧ t[i]? = some (id, pages) := by
  induction t generalizing k with
  | nil => cases h
  | cons e rest ih =>
    obtain ⟨id', pages'⟩ := e
    unfold scanTable at h
    split at h
    · rename_i hid
      cases h
      exact ⟨0, rfl, by simp [hid]⟩
    · obtain ⟨i, hj, hi⟩ := ih h
      exact ⟨i + 1, by omega, hi⟩

/-- Where each capacity is twice the one before, the last is the largest (R183). -/
theorem pages_le_last {t : IdTable} (h : IdTable.pagesDouble t = true) {e last : BitVec 16 × Nat}
    (hlast : t.getLast? = some last) (he : e ∈ t) : e.2 ≤ last.2 := by
  induction t generalizing e with
  | nil => cases he
  | cons f rest ih =>
    cases rest with
    | nil =>
      cases hlast
      cases List.mem_singleton.1 he
      exact le_rfl
    | cons g rest =>
      obtain ⟨i, p⟩ := f
      obtain ⟨j, q⟩ := g
      simp only [IdTable.pagesDouble, Bool.and_eq_true, decide_eq_true_eq] at h
      obtain ⟨hq, htail⟩ := h
      have htop : ∀ {e}, e ∈ (j, q) :: rest → e.2 ≤ last.2 := fun he => ih htail (by simpa using hlast) he
      rcases List.mem_cons.1 he with rfl | he
      · have := htop List.mem_cons_self
        simp only at this ⊢
        omega
      · exact htop he

/-- Nine entries, none above 2^23 pages (R183). -/
theorem idTable_ok_bounds {t : IdTable} (h : t.ok = true) : t.length = 9 ∧ ∀ e ∈ t, e.2 ≤ 2 ^ 23 := by
  simp only [IdTable.ok, Bool.and_eq_true, decide_eq_true_eq] at h
  obtain ⟨⟨⟨⟨hlen, _⟩, hdouble⟩, _⟩, hrange⟩ := h
  refine ⟨hlen, fun e he => ?_⟩
  unfold IdTable.pagesInRange at hrange
  split at hrange
  · rename_i hlast
    simp only [Bool.and_eq_true, decide_eq_true_eq] at hrange
    exact (pages_le_last hdouble hlast he).trans hrange.2
  · cases hrange

/-- The handle is the reset one (R186, R55). -/
theorem State.handleOk_cleared {t : State} (hv : t.valid = false) (hm : t.model = 0xF#4) (hs : t.size = 0#32) :
    t.HandleOk := ⟨fun _ => ⟨hs, hm⟩, fun h => by simp [hv] at h⟩

theorem State.SameHandle.handleOk {s t : State} (h : s.SameHandle t) (hp : t.params = s.params) (hs : s.HandleOk) :
    t.HandleOk := by
  obtain ⟨hv, hm, hz⟩ := h
  unfold State.HandleOk
  rw [hv, hm, hz, hp]
  exact hs

/-- What `mount` does to the handle keeps it consistent: an index below 9 fits `MODEL`, a capacity of at most 2^23 pages
fits `SIZE` (R184). -/
theorem State.MountsTo.handleOk {s t : State} (h : s.MountsTo t) (hp : t.params = s.params)
    (hok : s.params.idTable.ok = true) (hs : s.HandleOk) : t.HandleOk := by
  cases h with
  | same h => exact h.handleOk hp hs
  | cleared hv hm hz => exact State.handleOk_cleared hv hm hz
  | found device j pages scan hv hm hz =>
    obtain ⟨hlen, hpages⟩ := idTable_ok_bounds hok
    obtain ⟨i, rfl, hi⟩ := scanTable_some scan
    have hi9 : i < 9 := hlen ▸ (List.getElem?_eq_some_iff.1 hi).1
    have hle : pages ≤ 2 ^ 23 := hpages _ (List.mem_of_getElem? hi)
    have hmodel : t.model.toNat = i := by rw [hm, BitVec.toNat_ofNat]; omega
    have hsize : t.size.toNat = pages := by rw [hz, BitVec.toNat_ofNat]; omega
    refine ⟨fun h => by simp [hv] at h, fun _ => ⟨by omega, device, ?_⟩⟩
    rw [hp, hmodel, hsize, hi]

/-- No move of the host writes the handle or the parameters. -/
theorem hostStep_sameHandle {s t : State} (h : hostStep s = .next t) : t.params = s.params ∧ s.SameHandle t := by
  rcases hostStep_cases s t h with ⟨_, rfl⟩ | ⟨w, d, more, _, ha⟩ | ⟨v, more, _, rfl⟩ | ⟨i, more, _, rfl⟩
  · exact ⟨rfl, rfl, rfl, rfl⟩
  · obtain ⟨_, _, _, ⟨_, _, rfl⟩ | ⟨_, rfl⟩⟩ := State.accept_cases _ _ _ _ _ _ ha <;> exact ⟨rfl, rfl, rfl, rfl⟩
  · exact ⟨rfl, rfl, rfl, rfl⟩
  · exact ⟨rfl, rfl, rfl, rfl⟩

/-- An advance writes no parameter, and of the handle what `mount` does. -/
theorem advance_mountsTo {s t : State} (h : advance s = .next t) : t.params = s.params ∧ s.MountsTo t := by
  rcases advance_cases h with ⟨q, _, hq⟩ | ⟨r, rest, _, _, hr⟩ | ⟨_, hh⟩
  · obtain ⟨hk, hh⟩ := portStep_keeps hq
    exact ⟨hk.params, .same hh⟩
  · obtain ⟨hk, hm⟩ := routineStep_keeps hr
    exact ⟨hk.params, hm⟩
  · obtain ⟨hp, hh⟩ := hostStep_sameHandle hh
    exact ⟨hp, .same hh⟩

/-- Settles O10: `Reset` clears the handle, every advance is one of `State.MountsTo`. -/
theorem handleStaysConsistent : Obligations.HandleStaysConsistent := by
  intro s t hok hs h
  rcases step_cases s t h with ⟨later, _, rfl⟩ | ⟨later, _, ha⟩
  · exact ⟨State.handleOk_cleared rfl rfl rfl, rfl⟩
  · obtain ⟨hp, hm⟩ := advance_mountsTo ha
    exact ⟨hm.handleOk hp hok hs, hp⟩

end Sys2Proof.Machine
end

section
/-! The phase register stays a chain of calls (R36 to R38), and a chain of calls has at most four records. -/

namespace Sys2Proof.Machine

/-! ### The legal states of the phase register -/

/-- With nothing on a port only the stack matters. -/
theorem State.PhaseOk.of_free_port {t : State} (hl : legalStack t.ph = true) (hport : t.port = none) : t.PhaseOk :=
  ⟨hl, by simp [hport]⟩

/-- A request of the routine on top is outstanding. -/
theorem State.PhaseOk.of_request {t : State} {r : Record} {rest : List Record} {q : PortReq} (hph : t.ph = r :: rest)
    (hl : legalStack (r :: rest) = true) (hport : t.port = some q) (hm : r.mayAwait q) : t.PhaseOk := by
  refine ⟨hph ▸ hl, fun q' hq => ⟨r, rest, hph, ?_⟩⟩
  cases hport.symm.trans hq
  exact hm

/-! ### Every step keeps it legal -/

/-- Every move of a routine keeps the chain of calls (R38b to R38f). -/
theorem Moves.phaseOk {s t : State} {r : Record} {rest : List Record} (hl : legalStack (r :: rest) = true)
    (hport : s.port = none) (hm : Moves s r rest (.next t)) : t.PhaseOk := by
  cases hm with
  | goOn u k hu hk _ => exact .of_free_port (legalStack_at hl hk) (hu.port.trans hport)
  | call callee k hk hc => exact .of_free_port (legalStack_call (legalStack_at hl hk) hc) hport
  | ret u hu hn =>
    obtain ⟨c, below, rfl, _, hbelow⟩ := legalStack_ret hl hn
    exact .of_free_port hbelow (hu.port.trans hport)
  | request u k req _ hk hmay _ => exact .of_request rfl (legalStack_at hl hk) rfl hmay
  | delay ms k hk hmay => exact .of_request rfl (legalStack_at hl hk) rfl hmay
  | finish u rdata hu => exact .of_free_port rfl (hu.port.trans hport)
  | raise u c _ => exact .of_free_port rfl rfl

/-- The return of a request frees its port and leaves the stack, or empties it. -/
theorem portStep_phaseOk {s t : State} {q : PortReq} (hs : s.PhaseOk) (h : portStep q s = .next t) : t.PhaseOk := by
  obtain ⟨hl, _⟩ := hs
  rcases portStep_cases h with ⟨ms, _, rfl⟩ | rfl | ⟨_, _, _, _, _, _, _, _, _, rfl⟩
  · exact .of_free_port hl rfl
  · exact .of_free_port rfl rfl
  · exact .of_free_port hl rfl

/-- In IDLE the host starts a routine, or nothing (R38a). -/
theorem hostStep_phaseOk {s t : State} (hs : s.Idle) (h : hostStep s = .next t) : t.PhaseOk := by
  obtain ⟨hph, hport⟩ := hs
  have hl : legalStack s.ph = true := by rw [hph]; rfl
  rcases hostStep_cases s t h with ⟨_, rfl⟩ | ⟨w, d, more, _, ha⟩ | ⟨v, more, _, rfl⟩ | ⟨i, more, _, rfl⟩
  · exact .of_free_port hl hport
  · obtain ⟨_, _, _, ⟨_, _, rfl⟩ | ⟨_, rfl⟩⟩ := State.accept_cases _ _ _ _ _ _ ha
    · exact .of_free_port rfl hport
    · exact .of_free_port (by simp [legalStack, Record.inRange_first, Routine.isHost]) hport
  · exact .of_free_port hl hport
  · exact .of_free_port hl hport

theorem advance_phaseOk {s t : State} (hs : s.PhaseOk) (h : advance s = .next t) : t.PhaseOk := by
  rcases advance_cases h with ⟨q, _, hq⟩ | ⟨r, rest, hport, hph, hr⟩ | ⟨hidle, hh⟩
  · exact portStep_phaseOk hs hq
  · obtain ⟨hl, _⟩ := hs
    rw [hph] at hl
    have hm := routineStep_moves s rest (legalStack_inRange hl)
    rw [hr] at hm
    exact hm.phaseOk hl hport
  · exact hostStep_phaseOk hidle hh

/-- Settles O11: `Reset` empties the phase register, every advance keeps it legal (`advance_phaseOk`). -/
theorem phaseStackStaysLegal : Obligations.PhaseStackStaysLegal := by
  intro s t hs h
  rcases step_cases s t h with ⟨later, _, rfl⟩ | ⟨later, _, ha⟩
  · exact .of_free_port rfl rfl
  · exact advance_phaseOk (s := { s with resets := later }) hs ha

/-! ### The depth of a chain of calls -/

/-- How many records a routine and its calls can take: its height in the call graph of R37. -/
def Routine.height : Routine → Nat
  | .host _ => 4
  | .pageProgram | .sectorErase | .blockErase64k => 3
  | .waitUntilReady => 2
  | .readStatus | .gate _ | .readJedec | .refusal => 1

theorem Routine.height_pos (rt : Routine) : 1 ≤ rt.height := by cases rt <;> simp [Routine.height]

theorem Routine.height_le (rt : Routine) : rt.height ≤ 4 := by cases rt <;> simp [Routine.height]

/-- A call goes down in the call graph: there is no recursion (R37). -/
theorem Routine.height_callAt {rt callee : Routine} {k : Nat} (h : rt.callAt k = some callee) :
    callee.height < rt.height := by
  unfold Routine.callAt at h
  split at h <;> cases h <;> decide

/-- Above a routine of height `n` stand at most as many records as the call graph has levels above it. -/
theorem legalStack_depth {r : Record} {rest : List Record} (h : legalStack (r :: rest) = true) :
    rest.length + r.routine.height ≤ 4 := by
  induction rest generalizing r with
  | nil => simpa using r.routine.height_le
  | cons c below ih =>
    simp only [legalStack, Bool.and_eq_true, decide_eq_true_eq] at h
    obtain ⟨⟨_, hc⟩, hbelow⟩ := h
    have hlt := Routine.height_callAt hc
    have hle := ih hbelow
    simp only [List.length_cons]
    omega

/-- Settles O12: each call goes down one level of a call graph of four. -/
theorem phaseStackIsAtMostFourDeep : Obligations.PhaseStackIsAtMostFourDeep := by
  intro l h
  cases l with
  | nil => exact Nat.zero_le 4
  | cons r rest =>
    have hdepth := legalStack_depth h
    have hpos := r.routine.height_pos
    simp only [List.length_cons]
    omega

end Sys2Proof.Machine
end

section
/-! What a step adds to the trace and takes from the host (R38, R44, R262): at most one event, and nothing from the host
while an operation runs. -/

namespace Sys2Proof.Machine

/-- In IDLE with nothing on a port the host moves (R38, R262). -/
theorem advance_of_idle {s : State} (h : s.Idle) : advance s = hostStep s := by
  obtain ⟨hph, hport⟩ := h
  simp [advance, hph, hport]

/-- While an operation runs or a port is in use the host does not move (R262). -/
theorem advance_keeps {s t : State} (h : advance s = .next t) (hs : ¬ s.Idle) : s.Keeps t := by
  rcases advance_cases h with ⟨q, _, hq⟩ | ⟨r, rest, _, _, hr⟩ | ⟨hidle, _⟩
  · exact (portStep_keeps hq).1
  · exact (routineStep_keeps hr).1
  · exact absurd hidle hs

/-- Settles O19: `Reset` leaves the host port alone, and so does every advance outside IDLE. -/
theorem hostWaitsWhileAnOperationRuns : Obligations.HostWaitsWhileAnOperationRuns := by
  intro s t h hs
  rcases step_cases s t h with ⟨later, _, rfl⟩ | ⟨later, _, ha⟩
  · exact ⟨rfl, rfl⟩
  · have hk := advance_keeps (s := { s with resets := later }) ha hs
    exact ⟨hk.host, hk.regOut⟩

/-- Of the host's moves only `Cfg` writes `POLL_LIMIT` (R44). -/
theorem hostStep_pollLimit {s t : State} (h : hostStep s = .next t) : t.pollLimit = s.pollLimit ∨
    ∃ v more, s.host = .cfg v :: more ∧ t = State.configure { s with host := more } v := by
  rcases hostStep_cases s t h with ⟨_, rfl⟩ | ⟨w, d, more, _, ha⟩ | ⟨v, more, hs, rfl⟩ | ⟨i, more, _, rfl⟩
  · exact .inl rfl
  · obtain ⟨_, _, _, ⟨_, _, rfl⟩ | ⟨_, rfl⟩⟩ := State.accept_cases _ _ _ _ _ _ ha <;> exact .inl rfl
  · exact .inr ⟨v, more, hs, rfl⟩
  · exact .inl rfl

/-- Settles O18: outside IDLE nothing writes `POLL_LIMIT`, and in IDLE only `Cfg` does. -/
theorem onlyCfgAndResetChangeThePollLimit : Obligations.OnlyCfgAndResetChangeThePollLimit := by
  intro s t h hreset hne
  rcases step_cases s t h with ⟨later, hz, _⟩ | ⟨later, _, ha⟩
  · exact absurd (by rw [hz]; rfl) hreset
  · have hidle : s.Idle := by
      by_contra hs
      exact hne (advance_keeps (s := { s with resets := later }) ha hs).pollLimit
    refine ⟨hidle, ?_⟩
    rw [advance_of_idle (s := { s with resets := later }) hidle] at ha
    rcases hostStep_pollLimit ha with hsame | ⟨v, more, hs, rfl⟩
    · exact absurd hsame hne
    · exact ⟨v, more, hs, rfl, rfl, rfl⟩

/-- The host's moves add at most one event. -/
theorem hostStep_trace {s t : State} (h : hostStep s = .next t) :
    t.trace = s.trace ∨ ∃ e, t.trace = s.trace ++ [e] := by
  rcases hostStep_cases s t h with ⟨_, rfl⟩ | ⟨w, d, more, _, ha⟩ | ⟨v, more, hs, rfl⟩ | ⟨i, more, _, rfl⟩
  · exact .inl rfl
  · obtain ⟨_, _, _, ⟨_, _, rfl⟩ | ⟨_, rfl⟩⟩ := State.accept_cases _ _ _ _ _ _ ha <;> exact .inr ⟨_, rfl⟩
  · exact .inr ⟨_, rfl⟩
  · exact .inl rfl

theorem advance_trace {s t : State} (h : advance s = .next t) :
    t.trace = s.trace ∨ ∃ e, t.trace = s.trace ++ [e] := by
  by_cases hs : s.Idle
  · exact hostStep_trace (advance_of_idle hs ▸ h)
  · exact (advance_keeps h hs).trace

/-- A step adds at most one event (R310): `Reset` its own. -/
theorem step_trace {s t : State} (h : step s = .next t) : t.trace = s.trace ∨ ∃ e, t.trace = s.trace ++ [e] := by
  rcases step_cases s t h with ⟨later, _, rfl⟩ | ⟨later, _, ha⟩
  · exact .inr ⟨_, rfl⟩
  · exact advance_trace (s := { s with resets := later }) ha

/-- Settles O20: the new events are none or one, so at most one of them is of the bus. -/
theorem eachStepHasAtMostOneBusEvent : Obligations.EachStepHasAtMostOneBusEvent := by
  intro s t h
  obtain ⟨evs, ht, hone⟩ : ∃ evs, t.trace = s.trace ++ evs ∧ evs.length ≤ 1 := by
    rcases step_trace h with ht | ⟨e, ht⟩
    · exact ⟨[], by simpa using ht, Nat.zero_le 1⟩
    · exact ⟨[e], ht, le_rfl⟩
  exact ⟨evs, ht, hone, (List.length_filter_le _ _).trans hone⟩

end Sys2Proof.Machine
end

section
/-! Reset (R55, R280 to R282): the state after power-on and the `Reset` event. -/

namespace Sys2Proof.Machine

/-- Settles O7: the fields of `State.reset`; the host has asked nothing, so a step changes nothing. -/
theorem resetStateIsAsTheTableSays : Obligations.ResetStateIsAsTheTableSays :=
  ⟨rfl, rfl, rfl, rfl, rfl, rfl, rfl, rfl⟩

/-- With no frame on the transfer port the chip sees nothing of the abandoned request (R281). -/
theorem Chip.abandon_of_no_frame {c : Chip} {port : Option PortReq} (h : ∀ req, port ≠ some (.xfer req)) (k : Nat) :
    c.abandon port k = c := by
  unfold Chip.abandon
  split
  · exact absurd rfl (h _)
  · rfl

/-- An unknown chip uses up no answer for an abandoned frame (log 13). -/
theorem Chip.abandon_unknown (answers : List Bytes) (port : Option PortReq) (k : Nat) :
    (Chip.unknown answers).abandon port k = .unknown answers := rfl

/-- A `Reset` that is due takes the place of the step (R252). -/
theorem step_reset {s : State} {later : List Nat} (h : s.resets = 0 :: later) :
    step s = .next (State.resetEvent { s with resets := later }) := by
  simp [step, tick, h]

/-- Settles O8: the fields of the event, and what it does to the chip (`Chip.abandon`). -/
theorem resetEventActsAtAnyTime : Obligations.ResetEventActsAtAnyTime := by
  intro s later h
  refine ⟨_, step_reset h, rfl, rfl, rfl, rfl, rfl, rfl, rfl, rfl, rfl, rfl, ?_, ?_, ?_⟩
  · exact fun hport => Chip.abandon_of_no_frame hport _
  · rintro req d hport hchip
    exact ⟨Config.seenOfAbandoned s.free, by simp [Chip.abandon, hport, hchip]⟩
  · rintro answers hchip
    simp [Chip.abandon_unknown, hchip]

/-- A trace without events has no frame that could lack its write-enable. -/
theorem bracketed_nil : Bracketed [] := by
  intro before req resp after h
  cases before <;> cases h

/-- Settles O9: nothing runs, nothing is on a port, the trace and the host's requests are empty. -/
theorem invariantsHoldAtReset : Obligations.InvariantsHoldAtReset := by
  refine ⟨by decide, State.handleOk_cleared rfl rfl rfl, .of_free_port rfl rfl, ?_, nofun, ?_, nofun⟩
  · exact State.reset.framesOk_iff.2 ⟨nofun, nofun, nofun⟩
  · exact ⟨bracketed_nil, nofun, nofun, nofun⟩

end Sys2Proof.Machine
end

section
/-! The host's moves in IDLE and the end of an operation (R38a, R40, R44, R133, R247). -/

namespace Sys2Proof.Machine

/-- In IDLE, with no reset to come, the host moves. -/
theorem step_host {s : State} (h : s.Quiet) : step s = hostStep s := by
  obtain ⟨hph, hport, hresets⟩ := h
  rw [step_advance s hresets, advance_of_idle ⟨hph, hport⟩]

/-- Settles O6: the law of the step in IDLE, with a `Cmd` at the head of the host's requests. -/
theorem stepTakesTheCommand : Obligations.StepTakesTheCommand := by
  intro s w d more hs hhost
  rw [step_host hs]
  simp only [hostStep, hhost]

/-- Settles O36: the law of the step in IDLE, with a `Cfg` at the head of the host's requests. -/
theorem cfgWritesThePollLimit : Obligations.CfgWritesThePollLimit := by
  intro s v more hs hhost
  rw [step_host hs]
  simp only [hostStep, hhost, State.configure]

/-- Register 0 shows the bit `VALID` (R40). -/
theorem State.readReg_valid (s : State) : s.readReg 0#4 = if s.valid then 1#32 else 0#32 := by
  have hreg : s.readReg 0#4 = (BitVec.ofBool s.valid).setWidth 32 := rfl
  rw [hreg]
  cases s.valid <;> rfl

/-- Settles O37: the answer is `State.readReg`, whose value each number fixes (R40). -/
theorem registerReadAnswersTheNumber : Obligations.RegisterReadAnswersTheNumber := by
  intro s i more hs hhost
  have hstep : step s = .next (State.answerRead { s with host := more } i) := by
    rw [step_host hs]
    simp only [hostStep, hhost]
  refine ⟨_, _, hstep, rfl, ?_, ?_, ?_, ?_, ?_, ?_, ?_, ?_, ?_⟩ <;> rintro rfl
  case refine_1 => exact State.readReg_valid _
  case refine_2 => exact BitVec.toNat_setWidth_of_le (b := s.model) (by decide)
  case refine_5 => exact BitVec.toNat_setWidth_of_le (b := s.sr1) (by decide)
  case refine_6 => exact BitVec.toNat_setWidth_of_le (b := s.sr2) (by decide)
  case refine_8 => exact BitVec.toNat_setWidth_of_le (b := s.result) (by decide)
  all_goals rfl

/-- Settles O33: acceptance of a `Cmd` that the block exposes (`State.accept_ok`). -/
theorem acceptanceStartsTheRoutine : Obligations.AcceptanceStartsTheRoutine := by
  rintro s op a l d ⟨hph, hport⟩ hx hd
  rw [exec_instr]
  exact State.accept_ok s op a l d hph hport hd hx

/-- Acceptance in IDLE of an internal operation that this block does not expose (R133). -/
theorem State.accept_refused {s : State} {op : HostOp} {a l : Word} {d : Bytes} (hidle : s.Idle)
    (hop : op.internal = true) (hx : s.params.exposeInternal = false) (hd : wfCmdData op l d = true) :
    s.accept op a l d = .next ((s.latch op a l d).at .refusal 1 []) := by
  obtain ⟨hph, hport⟩ := hidle
  simp [State.accept, hph, hport, hop, hx, hd]

/-- Settles O34: the acceptance pushes the refusal, whose only step raises `Refused`. -/
theorem internalOperationIsRefused : Obligations.InternalOperationIsRefused := by
  rintro s t op a l d ⟨hph, hport⟩ hop hx hd rfl
  refine ⟨?_, fun hresets => ⟨_, step_routine _ ⟨.refusal, 1⟩ [] hresets hport rfl, ?_⟩⟩
  · rw [exec_instr]
    exact State.accept_refused ⟨hph, hport⟩ hop hx hd
  · simp [State.raise, packResult, Cause.code, hph, hport]

/-- Settles O32: `State.raise` writes the operation latch as a free value and the rest as R247 says. -/
theorem raiseEndsTheOperation : Obligations.RaiseEndsTheOperation := fun s _ => ⟨freeOpr s.free, rfl⟩

/-- Settles O25: the frame of `encode`, and the frame buffer that R35 leaves open. -/
theorem pageProgramFrameCarriesItsPayload : Obligations.PageProgramFrameCarriesItsPayload := fun s _ _ =>
  ⟨_, rfl, _, rfl, rfl, freeFrameBuffer_length s.free⟩

end Sys2Proof.Machine
end

section
/-! The attached chip under every step (R98, R281): each frame that reaches D0, whole or cut short by a `Reset`, keeps it a
device that the rule allows, and nothing else reaches it. -/

namespace Sys2Proof.Machine

/-- A chip of R98 stays one under every frame. -/
theorem State.ChipOk.of_after {s t : State} {req : Bytes} (h : s.ChipOk) (ht : t.chip = s.chip.after req) : t.ChipOk := by
  intro d hd
  cases hc : s.chip with
  | unknown answers => simp [ht, hc, Chip.after] at hd
  | d0 d' =>
    simp only [ht, hc, Chip.after, Chip.d0.injEq] at hd
    exact hd ▸ Device.wf_respond d' req (h d' hc)

theorem State.ChipOk.of_same {s t : State} (h : s.ChipOk) (ht : t.chip = s.chip) : t.ChipOk :=
  fun d hd => h d (ht ▸ hd)

/-- What a `Reset` abandons is nothing or a frame that D0 saw a first part of (R281, log 13). -/
theorem Chip.abandon_cases (c : Chip) (port : Option PortReq) (k : Nat) :
    c.abandon port k = c ∨ ∃ req, c.abandon port k = c.after req := by
  unfold Chip.abandon
  split
  · exact .inr ⟨_, rfl⟩
  · exact .inl rfl

/-- The return of a request: a delay leaves the chip alone, a transfer is one frame. -/
theorem portStep_chipOk {s t : State} {q : PortReq} (hs : s.ChipOk) (h : portStep q s = .next t) : t.ChipOk := by
  rcases portStep_cases h with ⟨ms, _, rfl⟩ | rfl | ⟨_, i, _, _, _, _, _, _, _, rfl⟩
  · exact hs
  · exact hs
  · exact hs.of_after (req := frameOf i) rfl

/-- No step of a routine reaches the chip: only the transfer port does. -/
theorem routineStep_chip {s t : State} {r : Record} {rest : List Record} (h : routineStep r rest s = .next t) :
    t.chip = s.chip := by
  by_cases hr : r.routine = .host .mount
  · obtain ⟨rt, k⟩ := r
    cases hr
    exact (mountStep_mountsTo s k rest t h).1
  · exact (routineStep_inside hr s rest t h).chip

/-- No move of the host reaches the chip. -/
theorem hostStep_chip {s t : State} (h : hostStep s = .next t) : t.chip = s.chip := by
  rcases hostStep_cases s t h with ⟨_, rfl⟩ | ⟨w, d, more, _, ha⟩ | ⟨v, more, _, rfl⟩ | ⟨i, more, _, rfl⟩
  · rfl
  · obtain ⟨_, _, _, ⟨_, _, rfl⟩ | ⟨_, rfl⟩⟩ := State.accept_cases _ _ _ _ _ _ ha <;> rfl
  · rfl
  · rfl

theorem advance_chipOk {s t : State} (hs : s.ChipOk) (h : advance s = .next t) : t.ChipOk := by
  rcases advance_cases h with ⟨q, _, hq⟩ | ⟨r, rest, _, _, hr⟩ | ⟨_, hh⟩
  · exact portStep_chipOk hs hq
  · exact hs.of_same (routineStep_chip hr)
  · exact hs.of_same (hostStep_chip hh)

/-- Settles O16: a frame keeps the device allowed (`Device.wf_respond`), also the part of one that a `Reset` leaves. -/
theorem deviceMemoryStaysCanonical : Obligations.DeviceMemoryStaysCanonical := by
  intro s t hs h
  rcases step_cases s t h with ⟨later, _, rfl⟩ | ⟨later, _, ha⟩
  · rcases Chip.abandon_cases s.chip s.port s.free with hc | ⟨req, hc⟩
    · exact hs.of_same (by simpa using hc)
    · exact hs.of_after (req := req) (by simpa using hc)
  · exact advance_chipOk (s := { s with resets := later }) hs ha

end Sys2Proof.Machine
end

section
/-! The reference device D0 frame by frame (R98 to R103): which frames it ignores, and what a program frame and the erase
frames make of its array. -/

namespace Sys2Proof.Machine

/-! ### One frame, performed -/

/-- An instruction that encodes to a frame is a wire instruction, and the frame is its own. -/
theorem isWire_of_encode {i : Instr} {req : Bytes} (h : encode i = .frame req) : isWire i = true ∧ frameOf i = req := by
  refine ⟨?_, by rw [frameOf, h]⟩
  cases i with
  | wren | wrdi | vsrwe | rdsr1 | rdsr2 | jedecid | dataRead | pp | se | be32 | be64 | ce => rfl
  | _ => cases h

/-- A well-formed frame other than `BE32` is exchanged with the chip (R9). -/
theorem exec_exchanges {i : Instr} (hw : isWire i = true) (hwf : i.wf = true) (hb : ∀ a, i ≠ .be32 a) (s : State) :
    ∃ t, exec i s = .next t ∧ t.chip = s.chip.after (frameOf i) ∧
      t.trace = s.trace ++ [.xfer (frameOf i) (s.response (frameOf i))] := by
  obtain ⟨t, ht⟩ := exec_wire_next hw hwf s
  rcases exec_wire_cases i s t hw ht with ⟨a, ha, _⟩ | ⟨_, _, _, _, _, _, rfl⟩
  · exact absurd ha (hb a)
  · exact ⟨_, ht, rfl, rfl⟩

/-- What a frame leaves in an attached D0. -/
theorem Chip.after_of_respond {c : Chip} {d d' : Device} {req resp : Bytes} (hc : c = .d0 d)
    (h : d.respond req = (resp, d')) : c.after req = .d0 d' := by
  rw [hc]
  exact congrArg (fun x => Chip.d0 x.2) h

/-- What an attached D0 answers to a frame. -/
theorem Chip.answer_of_respond {c : Chip} {d d' : Device} {req resp : Bytes} (k : Nat) (hc : c = .d0 d)
    (h : d.respond req = (resp, d')) : c.answer k req = resp := by
  rw [hc]
  exact congrArg Prod.fst h

/-! ### Frames that D0 ignores -/

/-- A gate frame of the volatile status write-enable changes nothing (R99). -/
theorem Device.respond_vsrwe (d : Device) : d.respond [opcVsrwe] = (artifacts 1, d) := by
  simp [Device.respond, opcVsrwe, opcCe, opcWrdi, opcWren, opcRdsr1, opcRdsr2, opcJedecid]

/-- On a busy device a gate frame changes nothing (R99). -/
theorem Device.respond_gate_busy (d : Device) (g : Gate) (h : d.bsy ≠ 0) : d.respond g.frame = (artifacts 1, d) := by
  cases g <;> exact Device.respond_busy d _ [] h (by decide) (by decide)

/-- The opcodes of the mutating frames (R291). -/
theorem mutatingFrame_cons (op : Byte) (rest : Bytes) :
    mutatingFrame (op :: rest) = true ↔ op = opcPp ∨ op = opcSe ∨ op = opcBe64 ∨ op = opcCe := by
  simp [mutatingFrame, or_assoc]

/-- With the latch clear a program or erase frame changes nothing, the device busy or not (R91, R101, R102). -/
theorem Device.respond_latch_clear (d : Device) {req : Bytes} (hw : d.wel = false) (hm : mutatingFrame req = true) :
    d.respond req = (artifacts req.length, d) := by
  cases req with
  | nil => cases hm
  | cons op rest =>
    have hlisted : op ≠ opcRdsr1 ∧ op ≠ opcRdsr2 ∧ op ≠ opcJedecid ∧ op ≠ opcWren ∧ op ≠ opcWrdi ∧ op ≠ opcDataRead := by
      rcases (mutatingFrame_cons op rest).1 hm with rfl | rfl | rfl | rfl <;> decide
    obtain ⟨h1, h2, h3, h4, h5, h6⟩ := hlisted
    simp only [Device.respond, h1, h2, h3, h4, h5, false_and, if_false]
    rcases rest with _ | ⟨b2, _ | ⟨b1, _ | ⟨b0, tail⟩⟩⟩ <;> simp +arith [hw, Device.addressed, h6]

/-- A program frame without payload changes nothing (R101). -/
theorem Device.respond_pp_empty (d : Device) (a : Addr24) (h : d.bsy = 0) :
    d.respond (opcPp :: addrBytes a) = (artifacts 4, d) := by
  simp [Device.respond, Device.addressed, addrBytes, h, opcBe64, opcSe, opcPp, opcDataRead, opcCe, opcWrdi, opcWren, opcRdsr1,
    opcRdsr2, opcJedecid]

/-- Only a status-1 read, the two latch gates, and the program and erase frames can change D0 (R98 to R103). -/
theorem Device.respond_passive (d : Device) {op : Byte} (rest : Bytes) (hst : op ≠ opcRdsr1) (hen : op ≠ opcWren)
    (hdis : op ≠ opcWrdi) (hm : mutatingFrame (op :: rest) = false) : (d.respond (op :: rest)).2 = d := by
  obtain ⟨hpp, hse, hbe, hce⟩ : op ≠ opcPp ∧ op ≠ opcSe ∧ op ≠ opcBe64 ∧ op ≠ opcCe := by
    simpa [mutatingFrame, and_assoc] using hm
  simp only [Device.respond, Device.addressed, hst, hen, hdis, hpp, hse, hbe, hce, false_and, if_false]
  repeat' split
  all_goals rfl

/-- A 32K erase frame changes nothing (R102). -/
theorem Device.respond_be32 (d : Device) (rest : Bytes) : (d.respond (opcBe32 :: rest)).2 = d :=
  d.respond_passive rest (by decide) (by decide) (by decide) rfl

/-- Settles O31: the frame is exchanged (`exec_exchanges`); a busy device ignores it (`Device.respond_busy`), and so does
one whose latch is clear (`Device.respond_latch_clear`). -/
theorem deviceIgnoresFrames : Obligations.DeviceIgnoresFrames := by
  intro s d i req hchip henc hwf hbe32 hrdsr1 hrdsr2 hor
  obtain ⟨hw, rfl⟩ := isWire_of_encode henc
  have hignored : d.respond (frameOf i) = (artifacts (frameOf i).length, d) := by
    rcases hor with hbusy | ⟨hwel, hm⟩
    · cases i with
      | rdsr1 => exact (hrdsr1 rfl).elim
      | rdsr2 => exact (hrdsr2 rfl).elim
      | dataRead a l =>
        obtain ⟨rest, hf⟩ : ∃ rest, frameOf (.dataRead a l) = opcDataRead :: rest := by
          obtain ⟨hl, _⟩ := (wfDataRead_iff a l).1 hwf
          obtain ⟨n, hn⟩ := Nat.exists_eq_succ_of_ne_zero (fun h0 => hl (BitVec.eq_of_toNat_eq h0) : l.toNat ≠ 0)
          exact ⟨_, by simp only [frameOf, encode, dataReadFrame, hn]; rfl⟩
        rw [hf]
        exact Device.respond_busy d _ _ hbusy (by decide) (by decide)
      | wren | wrdi | vsrwe | jedecid | pp | se | be32 | be64 | ce =>
        exact Device.respond_busy d _ _ hbusy (by decide) (by decide)
      | _ => exact (Bool.false_ne_true hw).elim
    · exact Device.respond_latch_clear d hwel hm
  obtain ⟨t, ht, htc, htt⟩ := exec_exchanges hw hwf hbe32 s
  refine ⟨t, ht, ?_, ?_⟩
  · rw [htc, Chip.after_of_respond hchip hignored]
  · rw [htt, State.response, Chip.answer_of_respond s.free hchip hignored]
    rfl

/-! ### The latch and the status -/

/-- Bit 0 of D0's status is busy (R99). -/
theorem Device.status_busy (d : Device) : busy d.status = decide (d.bsy ≠ 0) := by
  unfold busy Device.status
  cases d.wel <;> by_cases h : d.bsy = 0 <;> simp [h]

/-- Bit 1 of D0's status is the latch, and the upper bits are clear (R99). -/
theorem Device.status_latch (d : Device) :
    d.status.getLsbD 1 = d.wel ∧ ∀ j, 2 ≤ j → d.status.getLsbD j = false := by
  have hsmall : d.status.toNat < 2 ^ 2 ∧ d.status.getLsbD 1 = d.wel := by
    unfold Device.status
    cases d.wel <;> by_cases h : d.bsy = 0 <;> simp [h]
  obtain ⟨hlt, hbit⟩ := hsmall
  exact ⟨hbit, fun j hj => Nat.testBit_lt_two_pow (hlt.trans_le (Nat.pow_le_pow_right (by decide) hj))⟩

/-- The write-enable frame sets the latch of a ready device (R99). -/
theorem Device.after_wren (d : Device) :
    d.respond [opcWren] = (artifacts 1, if d.bsy = 0 then { d with wel := true } else d) := by
  split
  · exact Device.respond_wren d ‹_›
  · exact Device.respond_gate_busy d .writeEnable ‹_›

/-- The write-disable frame clears the latch of a ready device (R99). -/
theorem Device.after_wrdi (d : Device) :
    d.respond [opcWrdi] = (artifacts 1, if d.bsy = 0 then { d with wel := false } else d) := by
  split
  · exact Device.respond_wrdi d ‹_›
  · exact Device.respond_gate_busy d .writeDisable ‹_›

/-- Settles O28: one law of the device per frame. -/
theorem deviceLatchAndStatus : Obligations.DeviceLatchAndStatus := by
  intro s d hchip
  have hresp1 : s.response (frameOf .rdsr1) = [artifact, d.status] :=
    Chip.answer_of_respond s.free hchip (d.respond_rdsr1 fillByte)
  have hresp2 : s.response (frameOf .rdsr2) = [artifact, 0x00#8] :=
    Chip.answer_of_respond s.free hchip (d.respond_rdsr2 fillByte)
  have hsr1 : respByte (s.response (frameOf .rdsr1)) 1 = d.status := by rw [hresp1]; rfl
  have hsr2 : respByte (s.response (frameOf .rdsr2)) 1 = 0x00#8 := by rw [hresp2]; rfl
  refine ⟨⟨_, rfl, Chip.after_of_respond hchip d.after_wren⟩, ⟨_, rfl, Chip.after_of_respond hchip d.after_wrdi⟩,
    ⟨_, rfl, Chip.after_of_respond hchip d.respond_vsrwe⟩, ?rdsr1, ?rdsr2, fun hbsy => ?jedecid⟩
  case rdsr1 =>
    refine ⟨_, rfl, Chip.after_of_respond hchip (d.respond_rdsr1 fillByte), ?_, ?_, ?_⟩
    · simp only [State.exchange_trace, hresp1]
      rfl
    · simpa only [hsr1, busy] using d.status_busy
    · simpa only [hsr1] using d.status_latch
  case rdsr2 =>
    refine ⟨_, rfl, Chip.after_of_respond hchip (d.respond_rdsr2 fillByte), hsr2, ?_⟩
    simp only [State.exchange_trace, hresp2]
    rfl
  case jedecid =>
    have hj := d.respond_jedecid fillByte fillByte fillByte hbsy
    refine ⟨_, rfl, Chip.after_of_respond hchip hj, ?_⟩
    have hresp : s.response (frameOf .jedecid) = _ := Chip.answer_of_respond s.free hchip hj
    simp only [State.exchange_trace, hresp]
    rfl

/-! ### Programming and erasing -/

/-- The addresses of a unit of `n` bytes that holds the address `a`. -/
theorem mem_unit_iff (a n x : Nat) (hn : 0 < n) : (a - a % n ≤ x ∧ x < a - a % n + n) ↔ a / n = x / n := by
  have ha := Nat.div_add_mod a n
  have hstart : a - a % n = a / n * n := by rw [Nat.mul_comm]; omega
  rw [hstart, eq_comm, Nat.div_eq_iff hn]
  omega

/-- The array after the unit of `n` bytes that holds `a` was erased (R102). -/
def Memory.erasedUnit (m : Memory) (a n : Nat) : Memory := m.eraseRange (a - a % n) n

theorem Memory.read_erasedUnit (m : Memory) (a x : Nat) {n : Nat} (hn : 0 < n) :
    (m.erasedUnit a n).read x = if a / n = x / n then 0xFF#8 else m.read x := by
  rw [Memory.erasedUnit, Memory.read_eraseRange]
  simp only [mem_unit_iff a n x hn]
  rfl

/-- Settles O29: the frame of R101 by `Memory.read_program`; with the latch clear or without payload it is ignored. -/
theorem deviceProgramsWithinThePage : Obligations.DeviceProgramsWithinThePage := by
  intro s d a v hchip hwf hbsy hv
  obtain ⟨_, _, hm, _⟩ := (Device.wf_iff d).1 hwf
  refine ⟨fun hwel hne => ⟨_, d.mem.program (d.flashAddr a) 0 v, rfl,
    Chip.after_of_respond hchip (d.respond_pp a v hbsy hwel hne hv), ?_, ?_⟩, fun hor => ⟨_, rfl, ?_⟩⟩
  · rintro i hi x rfl
    have := Memory.read_program d.mem (d.flashAddr a) 0 i v hm (by omega) hi
    rwa [Nat.zero_add] at this
  · intro x hx
    exact Memory.read_program_of_ne d.mem (d.flashAddr a) 0 x v (fun i hi => by rw [Nat.zero_add]; exact hx i hi)
  · rcases hor with hwel | rfl
    · exact Chip.after_of_respond hchip (d.respond_latch_clear (req := frameOf (.pp a v)) hwel rfl)
    · exact Chip.after_of_respond hchip (d.respond_pp_empty a hbsy)

/-- Settles O30: the erase frames clear the unit of their address (`Memory.read_erasedUnit`), the chip erase everything. -/
theorem deviceErasesItsUnit : Obligations.DeviceErasesItsUnit := by
  intro s d a hchip hbsy hwel
  exact ⟨⟨_, _, rfl, Chip.after_of_respond hchip (d.respond_se (sectorMask a) hbsy hwel),
      fun x => Memory.read_erasedUnit _ _ x (by decide)⟩,
    ⟨_, _, rfl, Chip.after_of_respond hchip (d.respond_be64 (block64Mask a) hbsy hwel),
      fun x => Memory.read_erasedUnit _ _ x (by decide)⟩,
    ⟨_, [], rfl, Chip.after_of_respond hchip (d.respond_ce hbsy hwel), fun _ => rfl⟩, d.respond_be32⟩

end Sys2Proof.Machine
end

section
/-! Runs as symbolic execution (R9, R10, R38): one lemma per kind of step of a routine, the state after a list of port
uses, and from them what the shared routines `read_status`, `gate` and a poll of `wait_until_ready` do on any chip. -/

namespace Sys2Proof.Machine

/-! ### Runs between two states -/

/-- Some number of steps leads from `s` to `t`. -/
def Leads (s t : State) : Prop := ∃ k, run k s = .next t

/-- A run to a state with `Q` is what `Reaches` asks for. -/
theorem Leads.reaches {s t : State} {Q : State → Prop} (h : Leads s t) (hq : Q t) : Reaches s Q := by
  obtain ⟨k, hk⟩ := h
  exact ⟨k, t, hk, hq⟩

theorem Leads.refl (s : State) : Leads s s := ⟨0, rfl⟩

theorem Leads.trans {s t u : State} (h : Leads s t) (h' : Leads t u) : Leads s u := by
  obtain ⟨j, hj⟩ := h
  obtain ⟨k, hk⟩ := h'
  exact ⟨j + k, (run_add j k s t hj).trans hk⟩

theorem Leads.of_step {s t : State} (h : step s = .next t) : Leads s t := ⟨1, run_succ 0 s t h⟩

/-- The end of a run, written in another way. -/
theorem Leads.congr {s t u : State} (h : Leads s t) (ht : t = u) : Leads s u := ht ▸ h

/-- A loop of `n` rounds: what each round hands on to the next holds after all of them. -/
theorem Leads.iterate {P : Nat → State → Prop} {s : State} {n : Nat} (h : P 0 s)
    (hround : ∀ i u, i < n → P i u → ∃ v, Leads u v ∧ P (i + 1) v) : ∃ u, Leads s u ∧ P n u := by
  induction n with
  | zero => exact ⟨s, .refl s, h⟩
  | succ n ih =>
    obtain ⟨u, hu, hp⟩ := ih (fun i u hi => hround i u (by omega))
    obtain ⟨v, hv, hp⟩ := hround n u (by omega) hp
    exact ⟨v, hu.trans hv, hp⟩

/-- Nothing is on a port and no `Reset` will come: the routines run undisturbed. -/
abbrev State.Clear (s : State) : Prop := s.port = none ∧ s.resets = []

/-! ### The state after a list of port uses -/

/-- The state after the port uses `l`, the captures aside: the chip has seen the frames, the trace holds the events. -/
def State.played (s : State) (l : List PortReq) : State :=
  { s with chip := s.chip.played l, free := s.free + xfersOf l, trace := s.trace ++ playBus s.chip s.free l }

@[simp] theorem xfersOf_nil : xfersOf [] = 0 := rfl

@[simp] theorem xfersOf_delay (ms : Nat) (l : List PortReq) : xfersOf (.delay ms :: l) = xfersOf l :=
  List.countP_cons_of_neg nofun

@[simp] theorem xfersOf_xfer (req : Bytes) (l : List PortReq) : xfersOf (.xfer req :: l) = xfersOf l + 1 :=
  List.countP_cons_of_pos rfl

@[simp] theorem xfersOf_append (l m : List PortReq) : xfersOf (l ++ m) = xfersOf l + xfersOf m := List.countP_append

/-- Port uses one after the other. -/
theorem State.played_played (s : State) (l m : List PortReq) : (s.played l).played m = s.played (l ++ m) := by
  simp [State.played, Chip.played_append, playBus_append, xfersOf_append, Nat.add_assoc]

section
variable (s : State) (l : List PortReq)
@[simp] theorem State.played_cur : (s.played l).cur = s.cur := rfl
@[simp] theorem State.played_off : (s.played l).off = s.off := rfl
@[simp] theorem State.played_n : (s.played l).n = s.n := rfl
@[simp] theorem State.played_p : (s.played l).p = s.p := rfl
@[simp] theorem State.played_cnt : (s.played l).cnt = s.cnt := rfl
@[simp] theorem State.played_fb : (s.played l).fb = s.fb := rfl
@[simp] theorem State.played_params : (s.played l).params = s.params := rfl
@[simp] theorem State.played_chip : (s.played l).chip = s.chip.played l := rfl
@[simp] theorem State.played_free : (s.played l).free = s.free + xfersOf l := rfl
@[simp] theorem State.played_trace : (s.played l).trace = s.trace ++ playBus s.chip s.free l := rfl
end

/-! ### The steps of a routine, performed -/

/-- A step of a routine that uses no port. -/
theorem Leads.routine {s t : State} {r : Record} {rest : List Record} (hs : s.Clear) (hph : s.ph = r :: rest)
    (h : routineStep r rest s = .next t) : Leads s t := by
  obtain ⟨hport, hresets⟩ := hs
  exact .of_step ((step_routine s r rest hresets hport hph).trans h)

/-- A step of a routine that asks for a delay, and the delay (R10). -/
theorem Leads.delay {s : State} {r : Record} {below rest : List Record} {rt : Routine} {k ms : Nat} (hs : s.Clear)
    (hph : s.ph = r :: below) (h : routineStep r below s = .next ((s.requestDelay ms).at rt k rest)) :
    Leads s ((s.played [.delay ms]).at rt k rest) := by
  refine (Leads.routine hs hph h).trans (.of_step ?_)
  obtain ⟨hport, hresets⟩ := hs
  rw [step_delay ((s.requestDelay ms).at rt k rest) ms hresets rfl]
  simp [State.played, State.emit, State.at, State.requestDelay, Chip.played, playBus, hport]

/-- A step of a routine that presents a frame, and the performing of the frame (R9). -/
theorem Leads.send {s s' t : State} {r : Record} {below rest : List Record} {rt : Routine} {k : Nat} {req : Bytes}
    {i : Instr} (hs : s.Clear) (hph : s.ph = r :: below)
    (h : routineStep r below s = .next ((s'.request req).at rt k rest)) (hs' : s'.Clear) (hd : decodeFrame req = .ok i)
    (hx : exec i (s'.at rt k rest) = .next t) : Leads s t := by
  refine (Leads.routine hs hph h).trans (.of_step ?_)
  obtain ⟨hport, hresets⟩ := hs'
  rw [step_xfer ((s'.request req).at rt k rest) req i hresets rfl hd, ← hx]
  simp [State.at, State.request, hport]


/-- The port uses of a routine, taken up where it goes on. -/
theorem State.at_played_at (s : State) (l m : List PortReq) (rt rt' : Routine) (k k' : Nat) (rest rest' : List Record) :
    (((s.played l).at rt k rest).played m).at rt' k' rest' = (s.played (l ++ m)).at rt' k' rest' := by
  rw [← s.played_played l m]
  rfl

/-- What stands in `PH` plays no part in a port use. -/
theorem State.at_played (s : State) (l : List PortReq) (rt : Routine) (k : Nat) (rest : List Record) :
    (s.at rt k rest).played l = (s.played l).at rt k rest := rfl

theorem State.at_at (s : State) (rt rt' : Routine) (k k' : Nat) (rest rest' : List Record) :
    (s.at rt k rest).at rt' k' rest' = s.at rt' k' rest' := rfl

/-! ### `gate` (R168) -/

/-- The opcode of a gate (R168). -/
def Gate.opcode : Gate → Byte
  | .writeEnable => opcWren
  | .writeDisable => opcWrdi
  | .volatileStatusWriteEnable => opcVsrwe

/-- The one frame of a gate. -/
theorem gate_sends (g : Gate) {s : State} {rest : List Record} (hs : s.Clear) (hph : s.ph = ⟨.gate g, 2⟩ :: rest) :
    Leads s ((s.played [.xfer [g.opcode]]).at (.gate g) 3 rest) := by
  cases g <;> exact .send hs hph rfl hs rfl rfl

/-- A gate makes the three events of R168 and returns. -/
theorem gate_leads (g : Gate) {s : State} {rest : List Record} (hs : s.Clear) (hph : s.ph = ⟨.gate g, 1⟩ :: rest) :
    Leads s ((s.played (gateBus s.params g.opcode)).ret rest) := by
  have hbefore : Leads s ((s.played [.delay s.params.tGate]).at (.gate g) 2 rest) := .delay hs hph rfl
  have hsent : Leads s ((s.played [.delay s.params.tGate, .xfer [g.opcode]]).at (.gate g) 3 rest) :=
    hbefore.trans (.congr (gate_sends g hs rfl) (State.at_played_at _ _ _ _ _ _ _ _ _))
  have hafter : Leads s ((s.played (gateBus s.params g.opcode)).at (.gate g) 4 rest) :=
    hsent.trans (.congr (.delay hs rfl rfl) (State.at_played_at _ _ _ _ _ _ _ _ _))
  exact hafter.trans (.routine hs rfl rfl)

/-- A call of a gate, from the step that makes it to the step after. -/
theorem call_gate_leads {g : Gate} {s : State} {r : Record} {below rest : List Record} {rt : Routine} {k : Nat}
    (hs : s.Clear) (hph : s.ph = r :: below) (h : routineStep r below s = .next (s.call (.gate g) rt k rest)) :
    Leads s ((s.played (gateBus s.params g.opcode)).at rt k rest) :=
  .trans (.routine hs hph h) (gate_leads g hs rfl)

/-! ### `read_status` (R163) -/

/-- The state after one `read_status`: both captures are byte 1 of their answers. -/
def State.statusRead (s : State) : State :=
  { s.played (statusBus s.params) with
    sr1 := respByte (s.chip.answer s.free [0x05#8, 0x00#8]) 1,
    sr2 := respByte ((s.chip.after [0x05#8, 0x00#8]).answer (s.free + 1) [0x35#8, 0x00#8]) 1 }

/-- The frame of status register 1, its capture and the settle delay. -/
theorem readStatus_first_half {s : State} {rest : List Record} (hs : s.Clear) (hph : s.ph = ⟨.readStatus, 1⟩ :: rest) :
    Leads s (State.at { s.played [.xfer [0x05#8, 0x00#8], .delay s.params.tSettle] with
      sr1 := respByte (s.chip.answer s.free [0x05#8, 0x00#8]) 1 } .readStatus 3 rest) := by
  have hsent : Leads s (State.at { s.played [.xfer [0x05#8, 0x00#8]] with
      sr1 := respByte (s.chip.answer s.free [0x05#8, 0x00#8]) 1 } .readStatus 2 rest) :=
    .send hs hph rfl hs rfl rfl
  refine hsent.trans (.congr (.delay hs rfl rfl) ?_)
  simp [State.played, State.at, playBus, Chip.played]

/-- The frame of status register 2, its capture and the settle delay. -/
theorem readStatus_second_half {s : State} {rest : List Record} (hs : s.Clear) (hph : s.ph = ⟨.readStatus, 3⟩ :: rest) :
    Leads s (State.ret { s.played [.xfer [0x35#8, 0x00#8], .delay s.params.tSettle] with
      sr2 := respByte (s.chip.answer s.free [0x35#8, 0x00#8]) 1 } rest) := by
  have hsent : Leads s (State.at { s.played [.xfer [0x35#8, 0x00#8]] with
      sr2 := respByte (s.chip.answer s.free [0x35#8, 0x00#8]) 1 } .readStatus 4 rest) :=
    .send hs hph rfl hs rfl rfl
  have hafter : Leads s (State.at { s.played [.xfer [0x35#8, 0x00#8], .delay s.params.tSettle] with
      sr2 := respByte (s.chip.answer s.free [0x35#8, 0x00#8]) 1 } .readStatus 5 rest) := by
    refine hsent.trans (.congr (.delay hs rfl rfl) ?_)
    simp [State.played, State.at, playBus, Chip.played]
  exact hafter.trans (.routine hs rfl rfl)

/-- `read_status` makes the four events of R163 and returns. -/
theorem readStatus_leads {s : State} {rest : List Record} (hs : s.Clear) (hph : s.ph = ⟨.readStatus, 1⟩ :: rest) :
    Leads s (s.statusRead.ret rest) := by
  refine (readStatus_first_half hs hph).trans (.congr (readStatus_second_half hs rfl) ?_)
  simp [State.statusRead, State.played, State.at, State.ret, statusBus, playBus, Chip.played]

/-! ### One poll of `wait_until_ready` (R165) -/

/-- The state after one poll: a `read_status`, and one attempt more. -/
def State.polled (s : State) : State := { s.statusRead with att := nextAttempt s.att }

/-- A call of `read_status`, and the poll's step after it. -/
theorem poll_reads {s : State} {rest : List Record} (hs : s.Clear) (hph : s.ph = ⟨.waitUntilReady, 2⟩ :: rest) :
    Leads s (s.statusRead.at .waitUntilReady 3 rest) :=
  .trans (.routine hs hph rfl) (readStatus_leads hs rfl)

/-- A poll that finds the chip ready ends the wait. -/
theorem poll_ready {s : State} {rest : List Record} (hs : s.Clear) (hph : s.ph = ⟨.waitUntilReady, 2⟩ :: rest)
    (hb : busy s.statusRead.sr1 = false) : Leads s (s.polled.ret rest) := by
  refine (poll_reads hs hph).trans (.routine hs rfl ?_)
  simp only [routineStep, waitStep, State.at_sr1, hb]
  rfl

/-- A poll that finds the chip busy goes on to the test of the limit. -/
theorem poll_busy {s : State} {rest : List Record} (hs : s.Clear) (hph : s.ph = ⟨.waitUntilReady, 2⟩ :: rest)
    (hb : busy s.statusRead.sr1 = true) : Leads s (s.polled.at .waitUntilReady 4 rest) := by
  refine (poll_reads hs hph).trans (.routine hs rfl ?_)
  simp only [routineStep, waitStep, State.at_sr1, hb]
  rfl

/-- With attempts left, the poll delay and the next poll. -/
theorem poll_again {s : State} {rest : List Record} (hs : s.Clear) (hph : s.ph = ⟨.waitUntilReady, 4⟩ :: rest)
    (hl : attemptsSpent s.pollLimit s.att = false) :
    Leads s ((s.played [.delay s.params.tPoll]).at .waitUntilReady 2 rest) := by
  have hgoes : Leads s (s.at .waitUntilReady 5 rest) := by
    refine .routine hs hph ?_
    simp only [routineStep, waitStep, hl]
    rfl
  exact hgoes.trans (.delay hs rfl rfl)

end Sys2Proof.Machine
end

section
/-! `wait_until_ready` and `read` on the reference device (R103, R165, R205). -/

namespace Sys2Proof.Machine

/-! ### D0 under the port uses of a wait -/

theorem Chip.played_statusBus (d : Device) (p : Params) :
    (Chip.d0 d).played (statusBus p) = .d0 { d with bsy := d.bsy - 1 } := rfl

/-- Each busy poll takes one busy answer away (R99). -/
theorem Chip.played_pollBus (d : Device) (p : Params) (n : Nat) :
    (Chip.d0 d).played (pollBus p n) = .d0 { d with bsy := d.bsy - n } := by
  induction n generalizing d with
  | zero => rfl
  | succ n ih =>
    have hround : (Chip.d0 d).played (statusBus p ++ .delay p.tPoll :: pollBus p n) =
        (Chip.d0 { d with bsy := d.bsy - 1 }).played (pollBus p n) := rfl
    rw [pollBus, hround, ih, Nat.sub_sub, Nat.add_comm]

/-- The port uses of a wait that finds D0 busy `b` times. -/
def waitBus (p : Params) (b : Nat) : List PortReq := pollBus p b ++ statusBus p

theorem waitBus_succ (p : Params) (b : Nat) : waitBus p (b + 1) = statusBus p ++ .delay p.tPoll :: waitBus p b := by
  simp [waitBus, pollBus]

/-- After the wait the busy answers are used up. -/
theorem Chip.played_waitBus (d : Device) (p : Params) :
    (Chip.d0 d).played (waitBus p d.bsy) = .d0 { d with bsy := 0 } := by
  rw [waitBus, Chip.played_append, Chip.played_pollBus, Chip.played_statusBus, Nat.sub_self, Nat.zero_sub]

/-! ### The wait on D0 (R165) -/

/-- A status read of D0 captures its status. -/
theorem State.statusRead_d0 {s : State} {d : Device} (h : s.chip = .d0 d) :
    s.statusRead = { s.played (statusBus s.params) with sr1 := d.status, sr2 := 0x00#8 } := by
  simp only [State.statusRead, h]
  rfl

/-- A ready D0 shows the latch alone. -/
theorem Device.status_ready (d : Device) (h : d.bsy = 0) : d.status = latchByte d.wel := by
  simp [Device.status, latchByte, h]

/-- The attempts after `n` more, saturating (R165 S3). -/
def attemptsAfter (att : Word) (n : Nat) : Word := BitVec.ofNat 32 (min (att.toNat + n) (2 ^ 32 - 1))

theorem attemptsAfter_toNat (att : Word) (n : Nat) : (attemptsAfter att n).toNat = min (att.toNat + n) (2 ^ 32 - 1) := by
  simp [attemptsAfter]

theorem attemptsAfter_add (att : Word) (m n : Nat) : attemptsAfter (attemptsAfter att m) n = attemptsAfter att (m + n) := by
  apply BitVec.eq_of_toNat_eq
  simp only [attemptsAfter_toNat]
  omega

/-- The limit is none, or not reached by `n` more attempts. -/
theorem attemptsSpent_after {limit att : Word} {n : Nat} (h : limit = 0#32 ∨ att.toNat + n < limit.toNat) :
    attemptsSpent limit (attemptsAfter att n) = false := by
  simp only [attemptsSpent, attemptsAfter_toNat, Bool.and_eq_false_iff, decide_eq_false_iff_not, not_not]
  exact h.imp_right (fun h => by omega)

/-- The state after a wait on `d` that `att` attempts have begun. -/
def State.waitedFrom (s : State) (d : Device) : State :=
  { s.played (waitBus s.params d.bsy) with
    att := attemptsAfter s.att (d.bsy + 1), sr1 := latchByte d.wel, sr2 := 0x00#8 }

/-- The state after a poll of `d` that found it busy, and the poll delay. -/
def State.pollRound (s : State) (d : Device) : State :=
  { s.played (statusBus s.params ++ [.delay s.params.tPoll]) with
    att := attemptsAfter s.att 1, sr1 := d.status, sr2 := 0x00#8 }

/-- With the limit not reached, a busy poll and its delay lead to the next poll. -/
theorem poll_round {s : State} {rest : List Record} {d : Device} (hs : s.Clear) (hph : s.ph = ⟨.waitUntilReady, 2⟩ :: rest)
    (hc : s.chip = .d0 d) (hb : d.bsy ≠ 0) (hl : s.pollLimit = 0#32 ∨ s.att.toNat + 1 < s.pollLimit.toNat) :
    Leads s ((s.pollRound d).at .waitUntilReady 2 rest) := by
  have hbusy : busy s.statusRead.sr1 = true := by
    rw [State.statusRead_d0 hc]
    simpa [hb] using d.status_busy
  refine (poll_busy hs hph hbusy).trans (.congr (poll_again hs rfl (attemptsSpent_after hl)) ?_)
  rw [State.polled, State.statusRead_d0 hc, State.pollRound, ← State.played_played]
  rfl

/-- From any poll on: as many polls as busy answers to come, and one more. -/
theorem polls_lead {s : State} {rest : List Record} {d : Device} (hs : s.Clear) (hph : s.ph = ⟨.waitUntilReady, 2⟩ :: rest)
    (hc : s.chip = .d0 d) (hl : s.pollLimit = 0#32 ∨ s.att.toNat + d.bsy < s.pollLimit.toNat) :
    Leads s ((s.waitedFrom d).ret rest) := by
  generalize hb : d.bsy = b at hl
  induction b generalizing s d with
  | zero =>
    have hready : busy s.statusRead.sr1 = false := by
      rw [State.statusRead_d0 hc]
      simpa [hb] using d.status_busy
    refine (poll_ready hs hph hready).congr ?_
    rw [State.polled, State.statusRead_d0 hc, d.status_ready hb, State.waitedFrom, hb]
    rfl
  | succ b ih =>
    have hchip : (s.pollRound d).chip = .d0 { d with bsy := b } := by
      simp [State.pollRound, State.played, Chip.played_append, hc, Chip.played_statusBus, Chip.played, hb]
    have hatt : s.att.toNat + 1 + b < 2 ^ 32 → (s.pollRound d).att.toNat + b = s.att.toNat + (b + 1) := by
      intro h
      simp only [State.pollRound, attemptsAfter_toNat]
      omega
    have hround := poll_round hs hph hc (by omega) (hl.imp_right (fun h => by omega))
    refine hround.trans (.congr (ih (d := { d with bsy := b }) hs rfl hchip rfl ?_) ?_)
    · refine hl.imp_right (fun h => ?_)
      have := s.pollLimit.isLt
      have := hatt (by omega)
      exact this ▸ h
    · simp [State.waitedFrom, State.pollRound, State.played, State.ret, State.at, hb, waitBus_succ, playBus_append,
        Chip.played_append, playBus, Chip.played, attemptsAfter_add, Nat.add_assoc, Nat.add_comm 1]

/-- The state after a whole `wait_until_ready` on `d`. -/
def State.waited (s : State) (d : Device) : State := State.waitedFrom { s with att := 0#32 } d

section
variable (s : State) (d : Device)
@[simp] theorem State.waited_cur : (s.waited d).cur = s.cur := rfl
@[simp] theorem State.waited_off : (s.waited d).off = s.off := rfl
@[simp] theorem State.waited_n : (s.waited d).n = s.n := rfl
@[simp] theorem State.waited_p : (s.waited d).p = s.p := rfl
@[simp] theorem State.waited_cnt : (s.waited d).cnt = s.cnt := rfl
@[simp] theorem State.waited_fb : (s.waited d).fb = s.fb := rfl
@[simp] theorem State.waited_params : (s.waited d).params = s.params := rfl
@[simp] theorem State.waited_played : (s.waited d).chip = s.chip.played (waitBus s.params d.bsy) := rfl
@[simp] theorem State.waited_free : (s.waited d).free = s.free + xfersOf (waitBus s.params d.bsy) := rfl
@[simp] theorem State.waited_trace :
    (s.waited d).trace = s.trace ++ playBus s.chip s.free (waitBus s.params d.bsy) := rfl
end

theorem State.at_waited (s : State) (d : Device) (rt : Routine) (k : Nat) (rest : List Record) :
    (s.at rt k rest).waited d = (s.waited d).at rt k rest := rfl

theorem State.waited_chip {s : State} {d : Device} (hc : s.chip = .d0 d) : (s.waited d).chip = .d0 { d with bsy := 0 } := by
  rw [State.waited_played, hc, Chip.played_waitBus]

/-- `wait_until_ready` on a device whose busy answers run out in time (R165). -/
theorem wait_leads {s : State} {rest : List Record} {d : Device} (hs : s.Clear) (hph : s.ph = ⟨.waitUntilReady, 1⟩ :: rest)
    (hc : s.chip = .d0 d) (hl : waitEnds s.pollLimit d.bsy) : Leads s ((s.waited d).ret rest) := by
  have hstart : Leads s (State.at { s with att := 0#32 } .waitUntilReady 2 rest) := .routine hs hph rfl
  refine hstart.trans (.congr (polls_lead hs rfl hc ?_) rfl)
  exact hl.imp_right (fun h => by simpa using h)

/-- A call of the wait, from the step that makes it to the step after. -/
theorem call_wait_leads {s : State} {r : Record} {below rest : List Record} {rt : Routine} {k : Nat} {d : Device}
    (hs : s.Clear) (hph : s.ph = r :: below) (h : routineStep r below s = .next (s.call .waitUntilReady rt k rest))
    (hc : s.chip = .d0 d) (hl : waitEnds s.pollLimit d.bsy) : Leads s ((s.waited d).at rt k rest) :=
  .trans (.routine hs hph h) (wait_leads hs rfl hc hl)

/-! ### Host operations -/

/-- Acceptance in IDLE of an operation that the host may ask for (R38a). -/
theorem exec_accepted {s : State} {op : HostOp} {a l : Word} {d : Bytes} (hs : s.Quiet) (hx : s.Accepts op)
    (hd : wfCmdData op l d = true) : exec (op.instr a l d) s = .next ((s.latch op a l d).at (.host op) 1 []) := by
  obtain ⟨hph, hport, _⟩ := hs
  rw [exec_instr]
  exact State.accept_ok s op a l d hph hport hd hx

/-- Settles O52: the polls of `polls_lead`, called by the host operation. -/
theorem waitPollsUntilTheDeviceIsReady : Obligations.WaitPollsUntilTheDeviceIsReady := by
  intro s a l d dev hs hx hc hl
  have ⟨hph, hclear⟩ := hs
  refine ⟨_, exec_accepted (op := .waitUntilReady) hs hx rfl, ?_⟩
  have hwait : Leads ((s.latch .waitUntilReady a l d).at (.host .waitUntilReady) 1 [])
      (((s.latch .waitUntilReady a l d).waited dev).at (.host .waitUntilReady) 2 []) :=
    call_wait_leads hclear rfl rfl hc hl
  refine (hwait.trans (.routine hclear rfl rfl)).reaches ?_
  simp [State.finish, State.at, State.waited, State.waitedFrom, State.played, State.latch, packResult, Cause.code, HostOp.code,
    attemptsAfter, waitBus, Chip.played_append, Chip.played_pollBus, Chip.played_statusBus, hph, hclear.1, hc]

/-- The check of R151 as the rule writes it. -/
theorem State.paramsValid_iff (s : State) (a n : Word) : s.paramsValid a n = true ↔ rangeOk s.valid s.size a n := by
  unfold State.paramsValid rangeOk pageIndex pageBytes
  repeat' split
  all_goals simp_all

/-- A data-read frame leaves D0 as it is (R103). -/
theorem Device.respond_readFrame (d : Device) (a : Addr24) {l : Word} (hl : l ≠ 0#32) :
    (d.respond (dataReadFrame a l)).2 = d := by
  obtain ⟨n, hn⟩ := Nat.exists_eq_succ_of_ne_zero (fun h0 => hl (BitVec.eq_of_toNat_eq h0) : l.toNat ≠ 0)
  have hf : dataReadFrame a l = opcDataRead :: (addrBytes a ++ List.replicate (max l.toNat 4 - 4) fillByte).take n := by
    simp [dataReadFrame, hn]
  rw [hf]
  exact d.respond_passive _ (by decide) (by decide) (by decide) rfl

/-- A ready D0 answers its array from the address of the frame on, after the header (R103). -/
theorem Device.respond_readFrame_data (d : Device) (a : Addr24) {l : Word} (hb : d.bsy = 0) {i : Nat} (hi : i + 4 < l.toNat) :
    (d.respond (dataReadFrame a l)).1[i + 4]? = some (d.mem.read ((a.toNat % d.cap + i) % d.cap)) := by
  rw [dataReadFrame_whole_header a (by omega), Device.respond_dataRead d a _ hb,
    List.getElem?_append_right (by simp [artifacts])]
  simp [artifacts, Device.data, Device.flashAddr, show i < l.toNat - 4 by omega]

/-- The frame of a valid `read` decodes, without the address bits that it does not carry, to a data read (R119). -/
theorem decodeFrame_readFrame (a : Addr24) {l : Word} (hl : l ≠ 0#32) :
    decodeFrame (dataReadFrame a l) = .ok (.dataRead (a &&& sentMask l) l) := by
  rw [← dataReadFrame_sentMask]
  exact decodeFrame_dataReadFrame ((wfDataRead_iff _ _).2 ⟨hl, by rw [BitVec.and_assoc, BitVec.and_self]⟩)

/-- The step of `read` that sends its frame, and the capture of the whole answer (R205). -/
theorem read_sends {s : State} {rest : List Record} (hs : s.Clear) (hph : s.ph = ⟨.host .read, 2⟩ :: rest)
    (hl : s.len ≠ 0#32) :
    Leads s (State.at { s.played [.xfer s.readFrame] with rbuf := s.response s.readFrame } (.host .read) 3 rest) := by
  refine .send hs hph rfl hs (decodeFrame_readFrame (wireAddr s.addr) hl) ?_
  rw [exec_dataRead _ _ hl, dataReadFrame_sentMask]
  rfl

/-- Settles O46: the check passes, one frame is sent (`read_sends`), and its answer is returned. -/
theorem readReturnsTheWholeAnswer : Obligations.ReadReturnsTheWholeAnswer := by
  rintro s a l d req hs hrange hreq
  have ⟨hph, hclear⟩ := hs
  have ⟨_, hl, _, _⟩ := hrange
  refine ⟨_, exec_accepted (op := .read) hs (.inl rfl) rfl, ?_⟩
  have hreq : req = dataReadFrame (wireAddr a) l := hreq
  have hchecked : Leads ((s.latch .read a l d).at (.host .read) 1 []) ((s.latch .read a l d).at (.host .read) 2 []) := by
    have hv : State.paramsValid ((s.latch .read a l d).at (.host .read) 1 []) a l = true := (State.paramsValid_iff _ a l).2 hrange
    refine .routine hclear rfl ?_
    simp only [routineStep, readStep, State.at_addr, State.at_len, State.latch_addr, State.latch_len, hv, if_true]
    rfl
  have hsent := hchecked.trans (read_sends hclear rfl hl)
  refine (hsent.trans (.routine hclear rfl rfl)).reaches ⟨?_, ?_, ?_, ?_⟩
  · rw [hreq]
    simp [State.finish, State.at, State.played, State.latch, packResult, Cause.code, HostOp.code, playBus, Chip.played,
      State.response, State.readFrame, frameOf, encode, hph, hclear.1]
  · exact (State.response_length _ _).trans (dataReadFrame_length (wireAddr a) l)
  · exact Chip.read_after s.chip (mutatingFrame_dataReadFrame (wireAddr a) l)
  · intro dev hchip hb
    have hafter : s.chip.after (dataReadFrame (wireAddr a) l) = s.chip := by
      rw [hchip]
      exact congrArg Chip.d0 (dev.respond_readFrame (wireAddr a) hl)
    have hresp : s.response (dataReadFrame (wireAddr a) l) = (dev.respond (dataReadFrame (wireAddr a) l)).1 :=
      Chip.answer_of_respond s.free hchip rfl
    exact ⟨hafter, fun i hi => (congrArg (·[i + 4]?) hresp).trans (dev.respond_readFrame_data (wireAddr a) hb hi)⟩

end Sys2Proof.Machine
end

section
/-! `page_program` (R191, R194): the routine on any chip once its wait is over, and what it leaves in D0. -/

namespace Sys2Proof.Machine

/-! ### The routine -/

/-- The payload of the frame about to be sent (R191 S3, S4). -/
def State.clipped (s : State) : Bytes := payload s.wbuf s.off (clip s.n s.cur)

/-- The port uses of `page_program` after its wait. -/
def burstBus (p : Params) (a : Addr24) (v : Bytes) : List PortReq :=
  gateBus p opcWren ++ [.xfer (frameOf (.pp a v))] ++ gateBus p opcWrdi

/-- The state after the write-enable, the frame and the write-disable. -/
def State.burst (s : State) : State :=
  { s.played (burstBus s.params (wireAddr s.cur) s.clipped) with
    p := clip s.n s.cur, fb := freeFrameBuffer (s.free + 1) }

theorem State.clipped_length (s : State) : s.clipped.length ≤ 256 := by
  have := clip_le_pageRoom s.n s.cur
  simp only [clipped, payload, pageRoom, pageBytes, List.length_take] at this ⊢
  omega

/-- The clip, the frame and the return of its transfer, between the gates. -/
theorem pageProgram_sends {s : State} {rest : List Record} (hs : s.Clear) (hph : s.ph = ⟨.pageProgram, 3⟩ :: rest) :
    Leads s (State.at { s.played [.xfer (frameOf (.pp (wireAddr s.cur) s.clipped))] with
      p := clip s.n s.cur, fb := freeFrameBuffer s.free } .pageProgram 5 rest) := by
  have hclip : Leads s (State.at { s with p := clip s.n s.cur } .pageProgram 4 rest) := .routine hs hph rfl
  exact hclip.trans (.send hs rfl rfl hs (decodeFrame_ppFrame _ s.clipped_length) rfl)

/-- `page_program` from its write-enable on (R191). -/
theorem pageProgram_burst {s : State} {rest : List Record} (hs : s.Clear) (hph : s.ph = ⟨.pageProgram, 2⟩ :: rest) :
    Leads s (s.burst.ret rest) := by
  have henabled : Leads s ((s.played (gateBus s.params opcWren)).at .pageProgram 3 rest) :=
    call_gate_leads (g := .writeEnable) hs hph rfl
  have hsent : Leads s (State.at { s.played (gateBus s.params opcWren ++ [.xfer (frameOf (.pp (wireAddr s.cur) s.clipped))]) with
      p := clip s.n s.cur, fb := freeFrameBuffer (s.free + 1) } .pageProgram 5 rest) := by
    refine henabled.trans (.congr (pageProgram_sends hs rfl) ?_)
    rw [← s.played_played]
    rfl
  have hdisabled : Leads s (s.burst.at .pageProgram 6 rest) := by
    refine hsent.trans (.congr (call_gate_leads (g := .writeDisable) hs rfl rfl) ?_)
    rw [State.burst, burstBus, ← s.played_played (_ ++ _)]
    rfl
  exact hdisabled.trans (.routine hs rfl rfl)

/-- `page_program` on a device whose busy answers run out in time (R191). -/
theorem pageProgram_leads {s : State} {rest : List Record} {d : Device} (hs : s.Clear)
    (hph : s.ph = ⟨.pageProgram, 1⟩ :: rest) (hc : s.chip = .d0 d) (hl : waitEnds s.pollLimit d.bsy) :
    Leads s ((s.waited d).burst.ret rest) := by
  have hwait : Leads s ((s.waited d).at .pageProgram 2 rest) := call_wait_leads hs hph rfl hc hl
  exact hwait.trans (pageProgram_burst hs rfl)

/-- A call of `page_program`, from the step that makes it to the step after. -/
theorem call_pageProgram_leads {s : State} {r : Record} {below rest : List Record} {rt : Routine} {k : Nat} {d : Device}
    (hs : s.Clear) (hph : s.ph = r :: below) (h : routineStep r below s = .next (s.call .pageProgram rt k rest))
    (hc : s.chip = .d0 d) (hl : waitEnds s.pollLimit d.bsy) : Leads s ((s.waited d).burst.at rt k rest) :=
  .trans (.routine hs hph h) (pageProgram_leads hs rfl hc hl)

/-! ### D0 -/

/-- D0 after a write-enable, a program frame and a write-disable (R99, R101). -/
def Device.programmed (d : Device) (a : Addr24) (v : Bytes) : Device :=
  { d with mem := d.mem.program (d.flashAddr a) 0 v, wel := false, bsy := if v = [] then 0 else d.k }

theorem Chip.played_burstBus (d : Device) (p : Params) (a : Addr24) {v : Bytes} (hb : d.bsy = 0) (hv : v.length ≤ 256) :
    (Chip.d0 d).played (burstBus p a v) = .d0 (d.programmed a v) := by
  have hframes : (Chip.d0 d).played (burstBus p a v) =
      (((Chip.d0 d).after [opcWren]).after (frameOf (.pp a v))).after [opcWrdi] := rfl
  have henabled : (Chip.d0 d).after [opcWren] = .d0 { d with wel := true } :=
    Chip.after_of_respond rfl (d.respond_wren hb)
  rw [hframes, henabled]
  by_cases hne : v = []
  · subst hne
    have hignored : (Chip.d0 { d with wel := true }).after (frameOf (.pp a [])) = .d0 { d with wel := true } :=
      Chip.after_of_respond rfl (Device.respond_pp_empty { d with wel := true } a hb)
    rw [hignored]
    refine (Chip.after_of_respond rfl (Device.respond_wrdi { d with wel := true } hb)).trans ?_
    simp [Device.programmed, Memory.program, hb]
  · have hsent : (Chip.d0 { d with wel := true }).after (frameOf (.pp a v)) = .d0 (d.programmed a v) := by
      refine (Chip.after_of_respond rfl (Device.respond_pp { d with wel := true } a v hb rfl hne hv)).trans ?_
      simp [Device.programmed, Device.mutated, Device.flashAddr, hne]
    rw [hsent]
    refine (Chip.after_of_respond rfl (d.programmed a v).after_wrdi).trans ?_
    simp [Device.programmed]

/-- The whole of `page_program` on D0. -/
theorem State.waited_burst_chip {s : State} {d : Device} (hc : s.chip = .d0 d) :
    (s.waited d).burst.chip = .d0 (d.programmed (wireAddr s.cur) s.clipped) := by
  have hplayed : (s.waited d).burst.chip = (s.waited d).chip.played (burstBus s.params (wireAddr s.cur) s.clipped) := rfl
  rw [hplayed, State.waited_chip hc, Chip.played_burstBus _ _ _ rfl s.clipped_length]
  rfl

/-! ### The array -/

/-- A payload that ends in its page programs the addresses from its own on (R101). -/
theorem Memory.read_program_in_page (m : Memory) (a x : Nat) (v : Bytes) (hm : m.wf = true) (hp : a % 256 + v.length ≤ 256) :
    Memory.read (m.program a 0 v) x =
      if a ≤ x ∧ x < a + v.length then Memory.read m x &&& v.getD (x - a) 0#8 else Memory.read m x := by
  split
  · rename_i hx
    have hi : x - a < v.length := by omega
    have hwrap : pageWrap a (0 + (x - a)) = x := by rw [pageWrap_eq a _ (by omega)]; omega
    have := Memory.read_program m a 0 (x - a) v hm (by omega) hi
    rwa [hwrap, ← List.getD_eq_getElem v 0#8 hi] at this
  · rename_i hx
    refine Memory.read_program_of_ne m a 0 x v (fun i hi => ?_)
    rw [pageWrap_eq a _ (by omega)]
    omega

/-- The capacity of a device of R98 is a multiple of every unit up to 65536: addresses keep their place in it. -/
theorem Device.flashAddr_mod {d : Device} (hwf : d.wf = true) (a : Addr24) {n : Nat} (hn : n ∣ 65536) :
    d.flashAddr a % n = a.toNat % n := by
  obtain ⟨_, hcap, _, _⟩ := (Device.wf_iff d).1 hwf
  exact Nat.mod_mod_of_dvd _ (hn.trans (Nat.dvd_of_mod_eq_zero hcap))

theorem wireAddr_toNat (a : Word) : (wireAddr a).toNat = a.toNat % 2 ^ 24 := BitVec.toNat_setWidth 24 a

/-- The address bits that a frame drops do not change the place in a unit (R72). -/
theorem wireAddr_mod (a : Word) {n : Nat} (hn : n ∣ 2 ^ 24) : (wireAddr a).toNat % n = a.toNat % n := by
  rw [wireAddr_toNat, Nat.mod_mod_of_dvd _ hn]

theorem clip_toNat (n cur : Word) : (clip n cur).toNat = min n.toNat (256 - cur.toNat % 256) := by
  have := n.isLt
  simp only [clip, pageRoom, pageBytes, BitVec.toNat_ofNat]
  exact Nat.mod_eq_of_lt (by omega)

/-- The count that the clip gives, as a number (R192). -/
theorem clip_eq (n cur : Word) : clip n cur = BitVec.ofNat 32 (min n.toNat (256 - cur.toNat % 256)) := rfl

/-- The operands that `page_program` gives its routine (R194 S1). -/
def State.prepared (s : State) : State := { s with cur := s.addr, off := 0#32, n := s.len }

/-- Settles O56: the run is the wait and the burst, and the array is `Memory.read_program_in_page`. -/
theorem pageProgramProgramsTheDevice : Obligations.PageProgramProgramsTheDevice := by
  rintro s a l d dev cnt base hs hx hd hc hwf hl hcnt hbase
  have ⟨hph, hclear⟩ := hs
  refine ⟨_, exec_accepted (op := .pageProgram) hs hx (by simp [wfCmdData, hd]), ?_⟩
  have hprogrammed : Leads ((s.latch .pageProgram a l d).at (.host .pageProgram) 1 [])
      (((s.latch .pageProgram a l d).prepared.waited dev).burst.at (.host .pageProgram) 3 []) :=
    .trans (.routine hclear rfl rfl) (call_pageProgram_leads hclear rfl rfl hc hl)
  have hclip : clip l a = BitVec.ofNat 32 cnt := by rw [clip_eq, hcnt]
  have hpayload : (s.latch .pageProgram a l d).prepared.clipped = d.take cnt := by
    have := clip_toNat l a
    simp [State.clipped, State.prepared, payload, this, hcnt]
  have hlen : (d.take cnt).length = cnt := by simp [hd, hcnt]
  have hempty : d.take cnt = [] ↔ cnt = 0 := by rw [← List.length_eq_zero_iff, hlen]
  have hread : ∀ x, Memory.read (dev.mem.program base 0 (d.take cnt)) x =
      if base ≤ x ∧ x < base + cnt then dev.mem.read x &&& (d.take cnt).getD (x - base) 0#8 else dev.mem.read x := by
    obtain ⟨_, _, hm, _⟩ := (Device.wf_iff dev).1 hwf
    have hplace : base % 256 = a.toNat % 256 := by
      rw [hbase]
      exact (Device.flashAddr_mod hwf (wireAddr a) (by decide)).trans (wireAddr_mod a (by decide))
    intro x
    rw [Memory.read_program_in_page dev.mem base x _ hm (by omega), hlen]
  refine (hprogrammed.trans (.routine hclear rfl rfl)).reaches ⟨?_, dev.mem.program base 0 (d.take cnt), ?_, ?_, ?_⟩
  · simp [State.finish, State.at, State.burst, State.waited, State.waitedFrom, State.played, State.prepared, State.latch,
      packResult, Cause.code, hph, hclear.1, hclip]
  · refine (State.waited_burst_chip (s := (s.latch .pageProgram a l d).prepared) hc).trans ?_
    rw [hpayload, Device.programmed, hbase]
    simp only [hempty]
    rfl
  · intro i hi
    rw [hread, if_pos (by omega), Nat.add_sub_cancel_left]
    simp [hi]
  · intro x hx
    rw [hread, if_neg (by omega)]

end Sys2Proof.Machine
end

section
/-! The frames of a trace (R9): what the port uses of the routines put into it. -/

namespace Sys2Proof.Machine

/-- The frames among a list of port uses, in order. -/
def sentBy (l : List PortReq) : List Bytes :=
  l.filterMap (fun q => match q with
    | .xfer req => some req
    | .delay _ => none)

@[simp] theorem sentBy_nil : sentBy [] = [] := rfl

@[simp] theorem sentBy_xfer (req : Bytes) (l : List PortReq) : sentBy (.xfer req :: l) = req :: sentBy l := rfl

@[simp] theorem sentBy_delay (ms : Nat) (l : List PortReq) : sentBy (.delay ms :: l) = sentBy l := rfl

@[simp] theorem sentBy_append (l m : List PortReq) : sentBy (l ++ m) = sentBy l ++ sentBy m := List.filterMap_append

@[simp] theorem framesOf_append (tr tr' : List Event) : framesOf (tr ++ tr') = framesOf tr ++ framesOf tr' :=
  List.filterMap_append

/-- The frames of a list of port uses are those of its events, whichever chip answers. -/
@[simp] theorem framesOf_playBus (c : Chip) (k : Nat) (l : List PortReq) : framesOf (playBus c k l) = sentBy l := by
  induction l generalizing c k with
  | nil => rfl
  | cons q l ih =>
    cases q with
    | delay ms => exact ih c k
    | xfer req => exact congrArg (req :: ·) (ih _ _)

/-- A wait sends status reads only. -/
theorem sentBy_waitBus (p : Params) (b : Nat) {f : Bytes} (h : f ∈ sentBy (waitBus p b)) :
    f = [opcRdsr1, fillByte] ∨ f = [opcRdsr2, fillByte] := by
  have hstatus : ∀ g ∈ sentBy (statusBus p), g = [opcRdsr1, fillByte] ∨ g = [opcRdsr2, fillByte] := by
    simp [statusBus, opcRdsr1, opcRdsr2, fillByte]
  induction b with
  | zero => exact hstatus f h
  | succ b ih =>
    rw [waitBus_succ, sentBy_append, sentBy_delay, List.mem_append] at h
    exact h.elim (hstatus f) ih

/-- A wait sends no frame that a test of the opcode accepts, if it accepts no status read. -/
theorem filter_sentBy_waitBus (p : Params) (b : Nat) {q : Bytes → Bool} (h1 : q [opcRdsr1, fillByte] = false)
    (h2 : q [opcRdsr2, fillByte] = false) : (sentBy (waitBus p b)).filter q = [] := by
  rw [List.filter_eq_nil_iff]
  intro f hf
  rcases sentBy_waitBus p b hf with rfl | rfl
  · simp [h1]
  · simp [h2]

end Sys2Proof.Machine
end

section
/-! `write` (R201, R202): its loop on D0, call by call, and what it leaves in the array. -/

namespace Sys2Proof.Machine

/-! ### Working registers -/

/-- `u` is `s` but for what the loops of `write` and `erase` work with: the working registers behind the operands, the
frame buffer, the captures, the chip and the model's own fields. -/
def State.Reworked (s u : State) : Prop :=
  u = { s with cur := u.cur, off := u.off, n := u.n, p := u.p, att := u.att, cnt := u.cnt, fb := u.fb, sr1 := u.sr1,
               sr2 := u.sr2, free := u.free, chip := u.chip, trace := u.trace }

theorem State.Reworked.refl (s : State) : s.Reworked s := rfl

theorem State.Reworked.trans {s u v : State} (h : s.Reworked u) (h' : u.Reworked v) : s.Reworked v :=
  Eq.trans h' (by rw [h])

section
variable {s u : State} (h : s.Reworked u)
include h
theorem State.Reworked.addr : u.addr = s.addr := (congrArg State.addr h :)
theorem State.Reworked.len : u.len = s.len := (congrArg State.len h :)
theorem State.Reworked.wbuf : u.wbuf = s.wbuf := (congrArg State.wbuf h :)
theorem State.Reworked.ph : u.ph = s.ph := (congrArg State.ph h :)
theorem State.Reworked.size : u.size = s.size := (congrArg State.size h :)
theorem State.Reworked.pollLimit : u.pollLimit = s.pollLimit := (congrArg State.pollLimit h :)
theorem State.Reworked.params : u.params = s.params := (congrArg State.params h :)
theorem State.Reworked.clear (hs : s.Clear) : u.Clear :=
  ⟨(congrArg State.port h).trans hs.1, (congrArg State.resets h).trans hs.2⟩
end

theorem State.played_reworked (s : State) (l : List PortReq) : s.Reworked (s.played l) := rfl
theorem State.waited_reworked (s : State) (d : Device) : s.Reworked (s.waited d) := rfl
theorem State.withCur_reworked (s : State) (c : Word) : s.Reworked { s with cur := c } := rfl

/-! ### One call -/

/-- The payload count of the call that the loop is about to make (R201 S4, R191 S3). -/
def State.chunk (s : State) : Word := clip (offered s.len s.off) s.cur

/-- The state after one call of `page_program` by the loop of `write`. -/
def State.called (s : State) (d : Device) : State := State.burst (State.waited { s with n := offered s.len s.off } d)

/-- The state after the call and the loop's step behind it (R201 S6). -/
def State.writeCall (s : State) (d : Device) : State :=
  { s.called d with
    off := (s.called d).off + (s.called d).p, cur := (s.called d).cur + (s.called d).p,
    cnt := (s.called d).off + (s.called d).p }

theorem State.writeCall_off (s : State) (d : Device) : (s.writeCall d).off = s.off + s.chunk := rfl
theorem State.writeCall_cur (s : State) (d : Device) : (s.writeCall d).cur = s.cur + s.chunk := rfl

/-- Going on at the step that the top record names already changes nothing. -/
theorem State.at_self {s : State} {rt : Routine} {k : Nat} {rest : List Record} (hph : s.ph = ⟨rt, k⟩ :: rest) :
    s.at rt k rest = s := by
  rw [State.at, ← hph]

/-- Below the length, the loop makes a call and comes back to its test (R201). -/
theorem write_call {s : State} {rest : List Record} {d : Device} (hs : s.Clear) (hph : s.ph = ⟨.host .write, 3⟩ :: rest)
    (hoff : s.off.toNat < s.len.toNat) (hc : s.chip = .d0 d) (hl : waitEnds s.pollLimit d.bsy) :
    Leads s (s.writeCall d) := by
  have htest : Leads s (s.at (.host .write) 4 rest) := by
    refine .routine hs hph ?_
    simp only [routineStep, writeStep, if_neg (show ¬ s.len.toNat ≤ s.off.toNat by omega)]
  have hoffer : Leads s (State.at { s with n := offered s.len s.off } (.host .write) 5 rest) :=
    htest.trans (.routine hs rfl rfl)
  have hcalled : Leads s ((s.called d).at (.host .write) 6 rest) :=
    hoffer.trans (call_pageProgram_leads hs rfl rfl hc hl)
  have hnext : Leads s ((s.writeCall d).at (.host .write) 3 rest) := hcalled.trans (.routine hs rfl rfl)
  exact hnext.congr (State.at_self hph)

theorem State.writeCall_reworked (s : State) (d : Device) : s.Reworked (s.writeCall d) := rfl

theorem State.writeCall_trace (s : State) (d : Device) : (s.writeCall d).trace = s.trace ++ playBus s.chip s.free
    (waitBus s.params d.bsy ++ burstBus s.params (wireAddr s.cur) (payload s.wbuf s.off s.chunk)) :=
  congrArg State.trace
    (s.played_played (waitBus s.params d.bsy) (burstBus s.params (wireAddr s.cur) (payload s.wbuf s.off s.chunk)))

theorem State.writeCall_chip {s : State} {d : Device} (hc : s.chip = .d0 d) :
    (s.writeCall d).chip = .d0 (d.programmed (wireAddr s.cur) (payload s.wbuf s.off s.chunk)) :=
  State.waited_burst_chip (s := { s with n := offered s.len s.off }) hc

/-! ### The chunks (R202) -/

/-- Each chunk ends with the page that it starts in (R202). -/
theorem chunkStart_room (a : Word) (i : Nat) :
    256 - (a.toNat + chunkStart a i) % 256 = chunkStart a (i + 1) - chunkStart a i := by
  cases i with
  | zero => simp [chunkStart]
  | succ i =>
    simp only [chunkStart_succ]
    omega

/-- Before the last byte, the call takes what the page holds, or what is left (R192, R202). -/
theorem State.chunk_toNat {s : State} {i : Nat} (hoff : s.off.toNat = chunkStart s.addr i)
    (hlt : chunkStart s.addr i < s.len.toNat) (hcur : s.cur = s.addr + s.off) :
    s.chunk.toNat = min (s.len.toNat - s.off.toNat) (chunkStart s.addr (i + 1) - chunkStart s.addr i) ∧
      s.cur.toNat % 256 + s.chunk.toNat ≤ 256 ∧ 0 < s.chunk.toNat := by
  have hlen := s.len.isLt
  have hoffered : (offered s.len s.off).toNat = min (s.len.toNat - s.off.toNat) 256 := by
    simp only [offered, BitVec.toNat_ofNat]
    omega
  have hplace : s.cur.toNat % 256 = (s.addr.toNat + s.off.toNat) % 256 := by
    rw [hcur, BitVec.toNat_add]
    omega
  have hroom := chunkStart_room s.addr i
  rw [← hoff] at hroom
  rw [State.chunk, clip_toNat, hoffered, hplace, hroom]
  omega

/-- The calls before the last chunk's end, counted by R202. -/
theorem chunkStart_lt_iff (a : Word) {len : Nat} (hlen : 0 < len) (j : Nat) : chunkStart a j < len ↔ j < chunkCount a len := by
  simp only [chunkStart, chunkCount]
  omega

/-- The chunks of the data, put together, are the data up to the last one's end. -/
theorem chunks_flatten (a : Word) (d : Bytes) (n : Nat) :
    (((List.range n).map (chunkFrame a d)).map (List.drop 4)).flatten = d.take (chunkStart a n) := by
  induction n with
  | zero => simp
  | succ n ih =>
    have hstep : chunkStart a (n + 1) = chunkStart a n + (chunkStart a (n + 1) - chunkStart a n) := by
      simp only [chunkStart]; omega
    have hlast : (chunkFrame a d n).drop 4 = (d.drop (chunkStart a n)).take (chunkStart a (n + 1) - chunkStart a n) := rfl
    rw [List.range_succ, List.map_append, List.map_append, List.flatten_append, ih, hstep, List.take_add]
    simp [hlast]

/-- The frame of the call that starts at the `i`-th chunk. -/
theorem State.chunkFrame_eq {s : State} {i : Nat} (hoff : s.off.toNat = chunkStart s.addr i)
    (hcur : s.cur = s.addr + s.off) (hw : s.wbuf.length = s.len.toNat)
    (hchunk : s.chunk.toNat = min (s.len.toNat - s.off.toNat) (chunkStart s.addr (i + 1) - chunkStart s.addr i)) :
    frameOf (.pp (wireAddr s.cur) (payload s.wbuf s.off s.chunk)) = chunkFrame s.addr s.wbuf i := by
  have haddr : wireAddr s.cur = BitVec.ofNat 24 (s.addr.toNat + chunkStart s.addr i) := by
    apply BitVec.eq_of_toNat_eq
    rw [wireAddr_toNat, hcur, BitVec.toNat_add, hoff, BitVec.toNat_ofNat]
    exact Nat.mod_mod_of_dvd _ (by decide)
  have hdata : payload s.wbuf s.off s.chunk =
      (s.wbuf.drop (chunkStart s.addr i)).take (chunkStart s.addr (i + 1) - chunkStart s.addr i) := by
    rw [payload, hoff, List.take_eq_take_iff, List.length_drop]
    omega
  rw [haddr, hdata]
  rfl

/-! ### The loop -/

/-- What holds at the test of the loop after `i` calls, `s` being the state at the first test and `d` the device there:
the registers, the page-program frames so far (R202), and the array (R101). -/
structure WriteLoop (s : State) (d : Device) (i : Nat) (u : State) : Prop where
  same : s.Reworked u
  off : u.off.toNat = min (chunkStart s.addr i) s.len.toNat
  cur : u.cur = s.addr + u.off
  cnt : u.cnt = u.off
  frames : ∃ evs, u.trace = s.trace ++ evs ∧
    (framesOf evs).filter isPageProgram = (List.range i).map (chunkFrame s.addr s.wbuf)
  chip : ∃ m w b, u.chip = .d0 { d with mem := m, wel := w, bsy := b } ∧ m.wf = true ∧ waitEnds s.pollLimit b ∧
    (0 < i → w = false ∧ b = d.k) ∧
    (s.addr.toNat + s.len.toNat ≤ d.cap → s.addr.toNat + s.len.toNat ≤ 2 ^ 24 → ∀ x, m.read x =
      if s.addr.toNat ≤ x ∧ x < s.addr.toNat + u.off.toNat then d.mem.read x &&& s.wbuf.getD (x - s.addr.toNat) 0#8
      else d.mem.read x)

/-- Before the first call. -/
theorem WriteLoop.start {s : State} {d : Device} (hoff : s.off = 0#32) (hcur : s.cur = s.addr) (hcnt : s.cnt = 0#32)
    (hc : s.chip = .d0 d) (hm : d.mem.wf = true) (hl : waitEnds s.pollLimit d.bsy) : WriteLoop s d 0 s where
  same := .refl s
  off := by simp [hoff]
  cur := by simp [hoff, hcur]
  cnt := by rw [hcnt, hoff]
  frames := ⟨[], by simp, rfl⟩
  chip := by
    refine ⟨d.mem, d.wel, d.bsy, hc, hm, hl, by simp, fun _ _ x => ?_⟩
    rw [if_neg]
    simp [hoff]

/-- Of the frames of one call only the program frame programs. -/
theorem filter_sentBy_burstBus (p : Params) (a : Addr24) (v : Bytes) :
    (sentBy (burstBus p a v)).filter isPageProgram = [frameOf (.pp a v)] := rfl

/-- A programmed range, extended by the next payload. -/
theorem programmed_extend {m₀ m m' : Memory} {w v : Bytes} {a off c : Nat}
    (hm : ∀ x, m.read x = if a ≤ x ∧ x < a + off then m₀.read x &&& w.getD (x - a) 0#8 else m₀.read x)
    (hm' : ∀ x, m'.read x = if a + off ≤ x ∧ x < a + off + c then m.read x &&& v.getD (x - (a + off)) 0#8 else m.read x)
    (hv : ∀ j, j < c → v.getD j 0#8 = w.getD (off + j) 0#8) (x : Nat) :
    m'.read x = if a ≤ x ∧ x < a + (off + c) then m₀.read x &&& w.getD (x - a) 0#8 else m₀.read x := by
  rw [hm', hm]
  by_cases hnew : a + off ≤ x ∧ x < a + off + c
  · rw [if_pos hnew, if_neg (by omega), if_pos (by omega), hv _ (by omega)]
    congr 2
    omega
  · rw [if_neg hnew]
    by_cases hold : a ≤ x ∧ x < a + off
    · rw [if_pos hold, if_pos (by omega)]
    · rw [if_neg hold, if_neg (by omega)]

theorem payload_getD (w : Bytes) (off c : Word) {j : Nat} (hj : j < c.toNat) :
    (payload w off c).getD j 0#8 = w.getD (off.toNat + j) 0#8 := by
  simp [payload, List.getD_eq_getElem?_getD, hj]

/-- The array after a call, below the capacity and 2^24, where a frame's address is the register's (R72, R101). -/
theorem Device.programmed_read {d : Device} {a : Word} {v : Bytes} (hm : d.mem.wf = true)
    (hpage : a.toNat % 256 + v.length ≤ 256) (hcap : a.toNat < d.cap) (h24 : a.toNat < 2 ^ 24) (x : Nat) :
    (d.programmed (wireAddr a) v).mem.read x =
      if a.toNat ≤ x ∧ x < a.toNat + v.length then d.mem.read x &&& v.getD (x - a.toNat) 0#8 else d.mem.read x := by
  have haddr : d.flashAddr (wireAddr a) = a.toNat := by
    rw [Device.flashAddr, wireAddr_toNat, Nat.mod_eq_of_lt h24, Nat.mod_eq_of_lt hcap]
  have hprog : (d.programmed (wireAddr a) v).mem = d.mem.program a.toNat 0 v := by rw [← haddr]; rfl
  rw [hprog, Memory.read_program_in_page d.mem a.toNat x v hm hpage]

/-- One call more. -/
theorem WriteLoop.next {s u : State} {d : Device} {i : Nat} (hs : s.Clear) (hph : s.ph = [⟨.host .write, 3⟩])
    (hw : s.wbuf.length = s.len.toNat) (hk : waitEnds s.pollLimit d.k) (h : WriteLoop s d i u)
    (hlt : chunkStart s.addr i < s.len.toNat) : ∃ v, Leads u v ∧ WriteLoop s d (i + 1) v := by
  obtain ⟨hsame, hoff, hcur, hcnt, ⟨evs, htr, hframes⟩, m, w, b, hchip, hm, hb, _, harray⟩ := h
  have hlen := s.len.isLt
  rw [← hsame.addr] at hoff hcur hlt harray
  rw [← hsame.len] at hoff hlt hlen hw harray
  rw [← hsame.wbuf] at hw harray
  have hoff : u.off.toNat = chunkStart u.addr i := by omega
  obtain ⟨hchunk, hpage, hpos⟩ := State.chunk_toNat hoff hlt hcur
  have hpay : (payload u.wbuf u.off u.chunk).length = u.chunk.toNat := by
    simp only [payload, List.length_take, List.length_drop]
    omega
  have hne : payload u.wbuf u.off u.chunk ≠ [] := by
    rw [ne_eq, ← List.length_eq_zero_iff]
    omega
  have hoff' : (u.off + u.chunk).toNat = u.off.toNat + u.chunk.toNat := by
    rw [BitVec.toNat_add]
    omega
  refine ⟨_, write_call (hsame.clear hs) (hsame.ph.trans hph) (by omega) hchip (hsame.pollLimit ▸ hb),
    hsame.trans (State.writeCall_reworked _ _), ?off, ?cur, rfl, ?frames, ?chip⟩
  case off =>
    have hnext : chunkStart u.addr i ≤ chunkStart u.addr (i + 1) := by simp only [chunkStart]; omega
    rw [State.writeCall_off, hoff', ← hsame.addr, ← hsame.len]
    omega
  case cur =>
    rw [State.writeCall_cur, State.writeCall_off, hcur, hsame.addr, BitVec.add_assoc]
  case frames =>
    refine ⟨evs ++ playBus u.chip u.free
      (waitBus u.params b ++ burstBus u.params (wireAddr u.cur) (payload u.wbuf u.off u.chunk)), ?_, ?_⟩
    · rw [State.writeCall_trace, htr, List.append_assoc]
    · rw [framesOf_append, List.filter_append, hframes, framesOf_playBus, sentBy_append, List.filter_append,
        filter_sentBy_waitBus _ _ rfl rfl, filter_sentBy_burstBus, State.chunkFrame_eq hoff hcur hw hchunk, hsame.addr,
        hsame.wbuf, List.range_succ, List.map_append]
      rfl
  case chip =>
    refine ⟨(Device.programmed { d with mem := m, wel := w, bsy := b } (wireAddr u.cur) (payload u.wbuf u.off u.chunk)).mem,
      false, d.k, ?_, Memory.wf_program m _ 0 _ hm, hk, fun _ => ⟨rfl, rfl⟩, fun hcap h24 x => ?_⟩
    · rw [State.writeCall_chip hchip, Device.programmed, if_neg hne]
    · rw [← hsame.addr, ← hsame.len] at hcap h24
      have hcurNat : u.cur.toNat = u.addr.toNat + u.off.toNat := by
        rw [hcur, BitVec.toNat_add]
        omega
      have hcall := Device.programmed_read (d := { d with mem := m, wel := w, bsy := b }) (a := u.cur) hm
        (v := payload u.wbuf u.off u.chunk) (by omega) (show u.cur.toNat < d.cap by omega) (by omega)
      rw [hcurNat, hpay] at hcall
      rw [State.writeCall_off, hoff', ← hsame.addr, ← hsame.wbuf]
      exact programmed_extend (harray hcap h24) hcall (fun j hj => payload_getD _ _ _ hj) x

/-- The first test of the loop, after the range check (R201 S1, S2). -/
def State.writeStart (s : State) (a l : Word) (d : Bytes) : State :=
  State.at { s.latch .write a l d with cur := a, off := 0#32 } (.host .write) 3 []

/-- A valid range brings `write` to its loop. -/
theorem write_starts {s : State} {a l : Word} {d : Bytes} (hs : s.Clear) (hrange : rangeOk s.valid s.size a l) :
    Leads ((s.latch .write a l d).at (.host .write) 1 []) (s.writeStart a l d) := by
  have hv : State.paramsValid ((s.latch .write a l d).at (.host .write) 1 []) a l = true :=
    (State.paramsValid_iff _ a l).2 hrange
  have hchecked : Leads ((s.latch .write a l d).at (.host .write) 1 []) ((s.latch .write a l d).at (.host .write) 2 []) := by
    refine .routine hs rfl ?_
    simp only [routineStep, writeStep, State.at_addr, State.at_len, State.latch_addr, State.latch_len, hv, if_true]
    rfl
  exact hchecked.trans (.routine hs rfl rfl)

/-- Past the last byte the loop ends the operation (R201 S3). -/
theorem write_ends {s : State} {rest : List Record} (hs : s.Clear) (hph : s.ph = ⟨.host .write, 3⟩ :: rest)
    (hoff : s.len.toNat ≤ s.off.toNat) : Leads s (s.finish []) := by
  refine .routine hs hph ?_
  simp only [routineStep, writeStep, if_pos hoff]

/-- Settles O57: `WriteLoop` after all the calls of R202. -/
theorem writeProgramsEveryByte : Obligations.WriteProgramsEveryByte := by
  intro s a l d dev hs hd hrange hc hwf hl hk
  have ⟨hph, hclear⟩ := hs
  have ⟨_, hl0, _, _⟩ := hrange
  obtain ⟨_, _, hm, _⟩ := (Device.wf_iff dev).1 hwf
  have hpos : 0 < l.toNat := Nat.pos_of_ne_zero (fun h0 => hl0 (BitVec.eq_of_toNat_eq h0))
  refine ⟨_, exec_accepted (op := .write) hs (.inl rfl) (by simp [wfCmdData, hd]), ?_⟩
  have hstart : WriteLoop (s.writeStart a l d) dev 0 (s.writeStart a l d) := .start rfl rfl rfl hc hm hl
  obtain ⟨u, hu, hsame, hoff, hcur, hcnt, ⟨evs, htr, hframes⟩, m, w, b, hchip, _, _, hwb, harray⟩ :=
    Leads.iterate (n := chunkCount a l.toNat) hstart
      (fun i u hi hloop => hloop.next hclear rfl hd hk ((chunkStart_lt_iff a hpos i).2 hi))
  have hall : l.toNat ≤ chunkStart a (chunkCount a l.toNat) :=
    Nat.le_of_not_lt (fun h => absurd ((chunkStart_lt_iff a hpos _).1 h) (lt_irrefl _))
  have hoff : u.off = l := BitVec.eq_of_toNat_eq (hoff.trans (Nat.min_eq_right hall))
  have hrun := ((write_starts hclear hrange).trans hu).trans
    (write_ends (hsame.clear hclear) hsame.ph (by rw [hsame.len, hoff]; exact le_rfl))
  have hcur : u.cur = a + l := hcur.trans (congrArg (a + ·) hoff)
  have hcnt : u.cnt = l := hcnt.trans hoff
  have hsent : (framesOf (.cmd 0x2#4 a l d :: evs ++ [.done true .none l []])).filter isPageProgram =
      (List.range (chunkCount a l.toNat)).map (chunkFrame a d) := by
    refine Eq.trans ?_ hframes
    simp [framesOf]
  refine hrun.reaches ⟨?_, ⟨.cmd 0x2#4 a l d :: evs ++ [.done true .none l []], ?_, hsent, ?_⟩, m, ?_, fun hcap h24 => ?_⟩
  · have hu : u = _ := hsame
    rw [hu]
    simp [State.finish, State.writeStart, State.at, State.latch, packResult, Cause.code, hph, hclear.1, hoff, hcur, hcnt]
  · simp [htr, hcnt, State.writeStart, HostOp.code]
  · rw [hsent, chunks_flatten, List.take_of_length_le (hd.trans_le hall)]
  · obtain ⟨rfl, rfl⟩ := hwb (by simp [chunkCount])
    exact hchip
  · have harray : ∀ x, m.read x = if a.toNat ≤ x ∧ x < a.toNat + l.toNat then dev.mem.read x &&& d.getD (x - a.toNat) 0#8
        else dev.mem.read x := fun x => by
      have := harray hcap h24 x
      rwa [hoff] at this
    refine ⟨fun i hi => ?_, fun x hx => ?_⟩
    · rw [harray, if_pos (by omega), Nat.add_sub_cancel_left]
    · rw [harray, if_neg (by omega)]

end Sys2Proof.Machine
end

section
/-! The erase operations (R216 to R229): the part that all of them share, on D0, and the single erases. -/

namespace Sys2Proof.Machine

/-! ### What the erases share -/

/-- The steps 1 to 5 that `sector_erase`, `block_erase_64k` and `erase_all` have in common: their own check, the
write-enable, their own frame, the wait and the write-disable (R216, R219, R229). -/
structure EraseRoutine (rt : Routine) (ok : State → Prop) (frame : Word → Bytes) : Prop where
  check : ∀ s rest, ok s → routineStep ⟨rt, 1⟩ rest s = .next (s.at rt 2 rest)
  enable : ∀ s rest, routineStep ⟨rt, 2⟩ rest s = .next (s.call (.gate .writeEnable) rt 3 rest)
  send : ∀ s rest, routineStep ⟨rt, 3⟩ rest s = .next ((s.request (frame s.cur)).at rt 4 rest)
  performed : ∀ c, ∃ i, decodeFrame (frame c) = .ok i ∧ ∀ v, exec i v = .next (v.exchange (frame c))
  wait : ∀ s rest, routineStep ⟨rt, 4⟩ rest s = .next (s.call .waitUntilReady rt 5 rest)
  disable : ∀ s rest, routineStep ⟨rt, 5⟩ rest s = .next (s.call (.gate .writeDisable) rt 6 rest)

theorem sectorErase_routine : EraseRoutine .sectorErase (fun s => sectorIndex s.cur < capacitySectors s.size)
    (fun c => frameOf (.se (sectorAddr c))) where
  check s rest h := by simp only [routineStep, sectorEraseStep, if_neg (Nat.not_le.2 h)]
  enable _ _ := rfl
  send _ _ := rfl
  performed c := ⟨.se (sectorAddr c), decodeFrame_frameOf rfl (decide_eq_true (sectorMask_idem _)), fun _ => rfl⟩
  wait _ _ := rfl
  disable _ _ := rfl

theorem blockErase_routine : EraseRoutine .blockErase64k (fun s => blockIndex s.cur < capacityBlocks s.size)
    (fun c => frameOf (.be64 (blockAddr c))) where
  check s rest h := by simp only [routineStep, blockEraseStep, if_neg (Nat.not_le.2 h)]
  enable _ _ := rfl
  send _ _ := rfl
  performed c := ⟨.be64 (blockAddr c), decodeFrame_frameOf rfl (decide_eq_true (block64Mask_idem _)), fun _ => rfl⟩
  wait _ _ := rfl
  disable _ _ := rfl

theorem eraseAll_routine : EraseRoutine (.host .eraseAll) (fun s => s.valid = true) (fun _ => frameOf .ce) where
  check s rest h := by simp [routineStep, eraseAllStep, h]
  enable _ _ := rfl
  send _ _ := rfl
  performed _ := ⟨.ce, rfl, fun _ => rfl⟩
  wait _ _ := rfl
  disable _ _ := rfl

/-- The port uses before the wait of an erase. -/
def eraseOpening (p : Params) (f : Bytes) : List PortReq := gateBus p opcWren ++ [.xfer f]

/-- The state after an erase with the frame `f` that leaves `d` to be waited for. -/
def State.erased (s : State) (d : Device) (f : Bytes) : State :=
  ((s.played (eraseOpening s.params f)).waited d).played (gateBus s.params opcWrdi)

/-- On a ready D0 the frame `f` of an erase, the latch set, leaves the array `m`. -/
def Device.ErasesTo (d : Device) (f : Bytes) (m : Memory) : Prop :=
  ∃ resp, Device.respond { d with wel := true } f = (resp, d.mutated m)

theorem Chip.played_eraseOpening {d : Device} {f : Bytes} {m : Memory} (p : Params) (hb : d.bsy = 0) (hf : d.ErasesTo f m) :
    (Chip.d0 d).played (eraseOpening p f) = .d0 (d.mutated m) := by
  obtain ⟨resp, hresp⟩ := hf
  have hframes : (Chip.d0 d).played (eraseOpening p f) = ((Chip.d0 d).after [opcWren]).after f := rfl
  rw [hframes, Chip.after_of_respond rfl (d.respond_wren hb), Chip.after_of_respond rfl hresp]

/-- The steps 1 to 5 of an erase on a ready D0 whose busy answers run out in time. -/
theorem erase_leads {rt : Routine} {ok : State → Prop} {frame : Word → Bytes} (hr : EraseRoutine rt ok frame) {s : State}
    {rest : List Record} {d : Device} {m : Memory} (hs : s.Clear) (hph : s.ph = ⟨rt, 1⟩ :: rest) (hok : ok s)
    (hc : s.chip = .d0 d) (hb : d.bsy = 0) (hl : waitEnds s.pollLimit d.k) (hf : d.ErasesTo (frame s.cur) m) :
    Leads s ((s.erased (d.mutated m) (frame s.cur)).at rt 6 rest) := by
  obtain ⟨i, hdec, hexec⟩ := hr.performed s.cur
  have henabled : Leads s ((s.played (gateBus s.params opcWren)).at rt 3 rest) :=
    .trans (.routine hs hph (hr.check s rest hok)) (call_gate_leads (g := .writeEnable) hs rfl (hr.enable _ _))
  have hsent : Leads s ((s.played (eraseOpening s.params (frame s.cur))).at rt 4 rest) := by
    refine henabled.trans (.send hs rfl (hr.send _ _) hs hdec ?_)
    rw [hexec, eraseOpening, ← s.played_played]
    rfl
  have hchip : (s.played (eraseOpening s.params (frame s.cur))).chip = .d0 (d.mutated m) := by
    rw [State.played_chip, hc, Chip.played_eraseOpening s.params hb hf]
  have hwaited : Leads s (((s.played (eraseOpening s.params (frame s.cur))).waited (d.mutated m)).at rt 5 rest) :=
    hsent.trans (call_wait_leads hs rfl (hr.wait _ _) hchip hl)
  have hclear : ((s.played (eraseOpening s.params (frame s.cur))).waited (d.mutated m)).Clear :=
    ((s.played_reworked _).trans (State.waited_reworked _ _)).clear hs
  exact hwaited.trans (call_gate_leads (g := .writeDisable) hclear rfl (hr.disable _ _))

theorem State.at_erased (s : State) (d : Device) (f : Bytes) (rt : Routine) (k : Nat) (rest : List Record) :
    (s.at rt k rest).erased d f = (s.erased d f).at rt k rest := by
  simp only [State.erased, State.at_params, State.at_played, State.at_waited]

/-- The device afterwards is ready, its latch clear. -/
theorem State.erased_chip {s : State} {d : Device} {f : Bytes} {m : Memory} (hc : s.chip = .d0 d) (hb : d.bsy = 0)
    (hf : d.ErasesTo f m) : (s.erased (d.mutated m) f).chip = .d0 { d with mem := m, wel := false, bsy := 0 } := by
  have hchip : (s.played (eraseOpening s.params f)).chip = .d0 (d.mutated m) := by
    rw [State.played_chip, hc, Chip.played_eraseOpening s.params hb hf]
  have hplayed : (s.erased (d.mutated m) f).chip =
      ((s.played (eraseOpening s.params f)).waited (d.mutated m)).chip.after [opcWrdi] := rfl
  rw [hplayed, State.waited_chip hchip]
  exact Chip.after_of_respond rfl (Device.respond_wrdi _ rfl)

/-! ### The frames of the erases on D0 -/

theorem Device.erasesTo_se (d : Device) (c : Word) (hb : d.bsy = 0) :
    d.ErasesTo (frameOf (.se (sectorAddr c))) (d.mem.erasedUnit (d.flashAddr (sectorAddr c)) 4096) := by
  have hf : frameOf (.se (sectorAddr c)) = opcSe :: addrBytes (sectorAddr c) :=
    congrArg (fun x => opcSe :: addrBytes x) (sectorMask_idem (wireAddr c))
  exact ⟨_, hf ▸ Device.respond_se { d with wel := true } (sectorAddr c) hb rfl⟩

theorem Device.erasesTo_be64 (d : Device) (c : Word) (hb : d.bsy = 0) :
    d.ErasesTo (frameOf (.be64 (blockAddr c))) (d.mem.erasedUnit (d.flashAddr (blockAddr c)) 65536) := by
  have hf : frameOf (.be64 (blockAddr c)) = opcBe64 :: addrBytes (blockAddr c) :=
    congrArg (fun x => opcBe64 :: addrBytes x) (block64Mask_idem (wireAddr c))
  exact ⟨_, hf ▸ Device.respond_be64 { d with wel := true } (blockAddr c) hb rfl⟩

theorem Device.erasesTo_ce (d : Device) (hb : d.bsy = 0) : d.ErasesTo (frameOf .ce) [] :=
  ⟨_, Device.respond_ce { d with wel := true } hb rfl⟩

/-! ### The single erases (R217, R220, R229) -/

/-- The steps of a host operation that erases one unit with the routine `rt` (R217, R220). -/
structure EraseOp (op : HostOp) (rt : Routine) : Prop where
  start : ∀ s, routineStep ⟨.host op, 1⟩ [] s = .next (State.at { s with cur := s.addr } (.host op) 2 [])
  call : ∀ s, routineStep ⟨.host op, 2⟩ [] s = .next (s.call rt (.host op) 3 [])
  ret : ∀ s rest, routineStep ⟨rt, 6⟩ rest s = .next (s.ret rest)
  finish : ∀ s, routineStep ⟨.host op, 3⟩ [] s = .next (s.finish [])

theorem sectorErase_op : EraseOp .sectorErase .sectorErase := ⟨fun _ => rfl, fun _ => rfl, fun _ _ => rfl, fun _ => rfl⟩

theorem blockErase_op : EraseOp .blockErase64k .blockErase64k := ⟨fun _ => rfl, fun _ => rfl, fun _ _ => rfl, fun _ => rfl⟩

/-- The state at the `Done` of an erase with the frame `f`, `c` standing in `CUR`. -/
def State.eraseDone (s : State) (op : HostOp) (a l : Word) (w : Bytes) (c : Word) (d : Device) (f : Bytes) : State :=
  (State.erased { s.latch op a l w with cur := c } d f).finish []

theorem eraseOp_leads {op : HostOp} {rt : Routine} {ok : State → Prop} {frame : Word → Bytes} (hop : EraseOp op rt)
    (hr : EraseRoutine rt ok frame) {s : State} {a l : Word} {w : Bytes} {d : Device} {m : Memory} (hs : s.Clear)
    (hok : ∀ ph, ok { s.latch op a l w with cur := a, ph := ph }) (hc : s.chip = .d0 d) (hb : d.bsy = 0)
    (hl : waitEnds s.pollLimit d.k) (hf : d.ErasesTo (frame a) m) :
    Leads ((s.latch op a l w).at (.host op) 1 []) (s.eraseDone op a l w a (d.mutated m) (frame a)) := by
  have hcalled : Leads ((s.latch op a l w).at (.host op) 1 [])
      (State.at { s.latch op a l w with cur := a } rt 1 [⟨.host op, 3⟩]) :=
    .trans (.routine hs rfl (hop.start _)) (.routine hs rfl (hop.call _))
  have herased := hcalled.trans (erase_leads hr hs rfl (hok _) hc hb hl hf)
  exact herased.trans (.trans (.routine hs rfl (hop.ret _ _)) (.routine hs rfl (hop.finish _)))

theorem eraseAll_leads {s : State} {a l : Word} {w : Bytes} {d : Device} (hs : s.Clear) (hv : s.valid = true)
    (hc : s.chip = .d0 d) (hb : d.bsy = 0) (hl : waitEnds s.pollLimit d.k) :
    Leads ((s.latch .eraseAll a l w).at (.host .eraseAll) 1 [])
      (s.eraseDone .eraseAll a l w s.cur (d.mutated []) (frameOf .ce)) := by
  have herased := erase_leads eraseAll_routine (s := (s.latch .eraseAll a l w).at (.host .eraseAll) 1 []) hs rfl hv hc hb hl
    (d.erasesTo_ce hb)
  exact herased.trans (.routine hs rfl rfl)

/-- The registers and the chip at the `Done` of an erase. -/
theorem State.eraseDone_eq {s : State} {op : HostOp} {a l : Word} {w : Bytes} {c : Word} {d : Device} {f : Bytes} {m : Memory}
    {u : State} (hs : s.Quiet) (hc : s.chip = .d0 d) (hb : d.bsy = 0) (hf : d.ErasesTo f m)
    (hu : u = s.eraseDone op a l w c (d.mutated m) f) :
    u = { s with addr := a, len := l, cur := c, att := u.att, cnt := 0#32, wbuf := w, rbuf := [], sr1 := u.sr1,
                 sr2 := u.sr2, opr := u.opr, free := u.free, result := 0x1#4, count := 0#32, chip := u.chip,
                 trace := u.trace } ∧
      u.chip = .d0 { d with mem := m, wel := false, bsy := 0 } := by
  obtain ⟨hph, hport, _⟩ := hs
  subst hu
  constructor
  · simp [State.eraseDone, State.erased, State.finish, State.waited, State.waitedFrom, State.played, State.latch, packResult,
      Cause.code, hph, hport]
  · rw [State.eraseDone, State.finish_chip]
    exact State.erased_chip (s := { s.latch op a l w with cur := c }) hc hb hf

/-- Settles O58: the run of each erase, its own check passed, and the unit that its frame erases. -/
theorem eraseOperationsEraseTheirUnit : Obligations.EraseOperationsEraseTheirUnit := by
  intro s op a l w d hs hx hc hb hl hrange hop
  have hclear : s.Clear := hs.2
  refine ⟨_, exec_accepted hs hx (by rcases hop with rfl | rfl | rfl <;> rfl), ?_⟩
  rcases hop with rfl | rfl | rfl
  · have hok : sectorIndex a < capacitySectors s.size := by
      simpa [rangeFails, sectorIndex, capacitySectors, sectorBytes] using hrange
    have hf := d.erasesTo_se a hb
    obtain ⟨hu, hchip⟩ := State.eraseDone_eq (op := .sectorErase) (a := a) (l := l) (w := w) (c := a) hs hc hb hf rfl
    refine (eraseOp_leads sectorErase_op sectorErase_routine hclear (fun _ => hok) hc hb hl hf).reaches
      ⟨hu, _, hchip, fun _ x => ?_, nofun, nofun⟩
    exact Memory.read_erasedUnit _ _ x (by decide)
  · have hok : blockIndex a < capacityBlocks s.size := by
      simpa [rangeFails, blockIndex, capacityBlocks, blockBytes] using hrange
    have hf := d.erasesTo_be64 a hb
    obtain ⟨hu, hchip⟩ := State.eraseDone_eq (op := .blockErase64k) (a := a) (l := l) (w := w) (c := a) hs hc hb hf rfl
    refine (eraseOp_leads blockErase_op blockErase_routine hclear (fun _ => hok) hc hb hl hf).reaches
      ⟨hu, _, hchip, nofun, fun _ x => ?_, nofun⟩
    exact Memory.read_erasedUnit _ _ x (by decide)
  · have hv : s.valid = true := by simpa [rangeFails] using hrange
    obtain ⟨hu, hchip⟩ := State.eraseDone_eq (op := .eraseAll) (a := a) (l := l) (w := w) (c := s.cur) hs hc hb
      (d.erasesTo_ce hb) rfl
    exact (eraseAll_leads hclear hv hc hb hl).reaches ⟨hu, _, hchip, nofun, nofun, fun _ _ => rfl⟩

end Sys2Proof.Machine
end

section
/-! `erase` (R227, R228): its loop on D0, sector by sector, and what it leaves in the array. -/

namespace Sys2Proof.Machine

/-! ### One sector -/

/-- The state after the loop of `erase` has called `sector_erase`, which leaves `d` to be waited for, and made its stride. -/
def State.eraseCall (s : State) (d : Device) : State :=
  { s.erased d (frameOf (.se (sectorAddr s.cur))) with
    cur := (s.erased d (frameOf (.se (sectorAddr s.cur)))).cur + BitVec.ofNat 32 sectorBytes }

theorem erase_tests {s : State} {rest : List Record} (hs : s.Clear) (hph : s.ph = ⟨.host .erase, 3⟩ :: rest)
    (hlt : s.cur.toNat < s.len.toNat) : Leads s (s.at (.host .erase) 4 rest) := by
  refine .routine hs hph ?_
  simp only [routineStep, eraseStep, if_neg (show ¬ s.len.toNat ≤ s.cur.toNat by omega)]

theorem erase_strides {s : State} {rest : List Record} (hs : s.Clear) :
    Leads (s.at .sectorErase 6 (⟨.host .erase, 5⟩ :: rest))
      (State.at { s with cur := s.cur + BitVec.ofNat 32 sectorBytes } (.host .erase) 3 rest) :=
  .trans (.routine hs rfl rfl) (.routine (s := s.at (.host .erase) 5 rest) hs rfl rfl)

theorem State.erased_reworked (s : State) (d : Device) (f : Bytes) : s.Reworked (s.erased d f) :=
  ((s.played_reworked _).trans (State.waited_reworked _ d)).trans (State.played_reworked _ _)

theorem State.eraseCall_reworked (s : State) (d : Device) : s.Reworked (s.eraseCall d) :=
  (s.erased_reworked d _).trans (State.withCur_reworked _ _)

/-- What the loop does not work with. -/
theorem State.eraseCall_kept (s : State) (d : Device) : (s.eraseCall d).off = s.off ∧ (s.eraseCall d).n = s.n ∧
    (s.eraseCall d).p = s.p ∧ (s.eraseCall d).cnt = s.cnt ∧ (s.eraseCall d).fb = s.fb := by
  simp [State.eraseCall, State.erased]

theorem State.eraseCall_cur (s : State) (d : Device) : (s.eraseCall d).cur = s.cur + BitVec.ofNat 32 sectorBytes := by
  simp [State.eraseCall, State.erased]

/-- The array of `d` after its sector of the address `c` was erased (R102, R121). -/
def Device.sectorErased (d : Device) (c : Word) : Memory := d.mem.erasedUnit (d.flashAddr (sectorAddr c)) 4096

/-- Below the end of the range, the loop erases a sector and comes back to its test (R227). -/
theorem erase_call {s : State} {rest : List Record} {d : Device} (hs : s.Clear) (hph : s.ph = ⟨.host .erase, 3⟩ :: rest)
    (hlt : s.cur.toNat < s.len.toNat) (hok : sectorIndex s.cur < capacitySectors s.size) (hc : s.chip = .d0 d)
    (hb : d.bsy = 0) (hl : waitEnds s.pollLimit d.k) : Leads s (s.eraseCall (d.mutated (d.sectorErased s.cur))) := by
  have hcalled : Leads s (s.at .sectorErase 1 (⟨.host .erase, 5⟩ :: rest)) :=
    (erase_tests hs hph hlt).trans (.routine hs rfl rfl)
  have herased := hcalled.trans (erase_leads sectorErase_routine hs rfl hok hc hb hl (d.erasesTo_se s.cur hb))
  rw [State.at_erased, State.at_at] at herased
  exact (herased.trans (erase_strides ((s.erased_reworked _ _).clear hs))).congr (State.at_self hph)

/-- The device after one sector. -/
theorem State.eraseCall_chip {s : State} {d : Device} (hc : s.chip = .d0 d) (hb : d.bsy = 0) :
    (s.eraseCall (d.mutated (d.sectorErased s.cur))).chip =
      .d0 { d with mem := d.sectorErased s.cur, wel := false, bsy := 0 } := by
  simp only [State.eraseCall]
  exact State.erased_chip hc hb (d.erasesTo_se s.cur hb)

/-- The events of one erase. -/
theorem State.erased_trace (s : State) (d : Device) (f : Bytes) : (s.erased d f).trace = s.trace ++ playBus s.chip s.free
    (eraseOpening s.params f ++ waitBus s.params d.bsy ++ gateBus s.params opcWrdi) := by
  simp [State.erased, playBus_append, Nat.add_assoc]

theorem State.eraseCall_trace (s : State) (d : Device) : (s.eraseCall d).trace = s.trace ++ playBus s.chip s.free
    (eraseOpening s.params (frameOf (.se (sectorAddr s.cur))) ++ waitBus s.params d.bsy ++ gateBus s.params opcWrdi) := by
  rw [← State.erased_trace, State.eraseCall]

/-- Of the frames of one call only the erase frame erases a sector. -/
theorem filter_sentBy_erase (p : Params) (a : Addr24) (b : Nat) :
    (sentBy (eraseOpening p (frameOf (.se a)) ++ waitBus p b ++ gateBus p opcWrdi)).filter isSectorErase =
      [frameOf (.se a)] := by
  rw [sentBy_append, sentBy_append, List.filter_append, List.filter_append, filter_sentBy_waitBus _ _ rfl rfl]
  rfl

/-! ### Sector addresses -/

/-- The mask of R121 rounds down to a sector. -/
theorem sectorMask_toNat (a : Addr24) : (sectorMask a).toNat = a.toNat / 4096 * 4096 := by
  have hmask : (0xFFF000 : Nat) = (2 ^ 12 - 1) <<< 12 := rfl
  have hshift : a.toNat / 4096 * 4096 = (a.toNat >>> 12) <<< 12 := by
    rw [Nat.shiftRight_eq_div_pow, Nat.shiftLeft_eq]
  rw [hshift, sectorMask, BitVec.toNat_and, BitVec.toNat_ofNat, show 0xFFF000 % 2 ^ 24 = 0xFFF000 from rfl, hmask]
  refine Nat.eq_of_testBit_eq (fun j => ?_)
  have hhigh : 24 ≤ j → a.toNat.testBit j = false := fun hj =>
    Nat.testBit_lt_two_pow (a.isLt.trans_le (Nat.pow_le_pow_right (by decide) hj))
  rw [Nat.testBit_and, Nat.testBit_shiftLeft, Nat.testBit_shiftLeft, Nat.testBit_two_pow_sub_one, Nat.testBit_shiftRight]
  by_cases h12 : 12 ≤ j
  · by_cases h24 : j < 24
    · simp [h12, show j - 12 < 12 by omega]
    · simp [h12, hhigh (by omega)]
  · simp [h12]

theorem sectorAddr_toNat (a : Word) : (sectorAddr a).toNat = a.toNat / 4096 * 4096 % 2 ^ 24 := by
  rw [sectorAddr, sectorMask_toNat, wireAddr_toNat]
  omega

/-- The sector-erase frame for an address, as R228 writes it. -/
theorem frameOf_sectorAddr (a : Word) :
    frameOf (.se (sectorAddr a)) = [0x20#8] ++ addrBytes (BitVec.ofNat 24 (a.toNat / 4096 * 4096)) := by
  have haddr : sectorAddr a = BitVec.ofNat 24 (a.toNat / 4096 * 4096) :=
    BitVec.eq_of_toNat_eq (by rw [sectorAddr_toNat, BitVec.toNat_ofNat])
  rw [← haddr]
  exact congrArg (fun x => opcSe :: addrBytes x) (sectorMask_idem (wireAddr a))

/-! ### The loop -/

/-- What holds at the test of the loop after `i` sectors, `s` being the state at the first test and `d` the ready device
there: the registers, the erase frames so far (R228), and the array (R102). -/
structure EraseLoop (s : State) (d : Device) (i : Nat) (u : State) : Prop where
  same : s.Reworked u
  kept : u.off = s.off ∧ u.n = s.n ∧ u.p = s.p ∧ u.cnt = s.cnt ∧ u.fb = s.fb
  cur : u.cur.toNat = s.addr.toNat + 4096 * i
  frames : ∃ evs, u.trace = s.trace ++ evs ∧ (framesOf evs).filter isSectorErase =
    (List.range i).map (fun j => [0x20#8] ++ addrBytes (BitVec.ofNat 24 ((s.addr.toNat + 4096 * j) / 4096 * 4096)))
  chip : ∃ m w, u.chip = .d0 { d with mem := m, wel := w, bsy := 0 } ∧ (0 < i → w = false) ∧
    (s.len.toNat ≤ d.cap → s.len.toNat ≤ 2 ^ 24 → ∀ x, m.read x =
      if s.addr.toNat / 4096 ≤ x / 4096 ∧ x / 4096 < s.addr.toNat / 4096 + i then 0xFF#8 else d.mem.read x)

theorem EraseLoop.start {s : State} {d : Device} (hcur : s.cur = s.addr) (hc : s.chip = .d0 d) (hb : d.bsy = 0) :
    EraseLoop s d 0 s where
  same := .refl s
  kept := ⟨rfl, rfl, rfl, rfl, rfl⟩
  cur := by simp [hcur]
  frames := ⟨[], by simp, rfl⟩
  chip := by
    refine ⟨d.mem, d.wel, by rw [hc, ← hb], by simp, fun _ _ x => ?_⟩
    rw [if_neg (by omega)]

/-- Below 2^24 and the capacity a sector is erased at the place of its address. -/
theorem Device.read_sectorErased {d : Device} {c : Word} (hcap : c.toNat < d.cap) (h24 : c.toNat < 2 ^ 24) (x : Nat) :
    (d.sectorErased c).read x = if c.toNat / 4096 = x / 4096 then 0xFF#8 else d.mem.read x := by
  have haddr : d.flashAddr (sectorAddr c) = c.toNat / 4096 * 4096 := by
    have hle : c.toNat / 4096 * 4096 ≤ c.toNat := Nat.div_mul_le_self _ _
    rw [Device.flashAddr, sectorAddr_toNat, Nat.mod_eq_of_lt (b := 2 ^ 24) (by omega), Nat.mod_eq_of_lt (by omega)]
  rw [Device.sectorErased, haddr, Memory.read_erasedUnit _ _ _ (by decide), Nat.mul_div_cancel _ (by decide)]

/-- One sector more. -/
theorem EraseLoop.next {s u : State} {d : Device} {i : Nat} (hs : s.Clear) (hph : s.ph = [⟨.host .erase, 3⟩])
    (hcap : s.len.toNat ≤ s.size.toNat * 256) (h16 : s.size.toNat % 16 = 0) (hsize : s.size.toNat ≤ 2 ^ 23)
    (hk : waitEnds s.pollLimit d.k) (h : EraseLoop s d i u) (hlt : s.addr.toNat + 4096 * i < s.len.toNat) :
    ∃ v, Leads u v ∧ EraseLoop s d (i + 1) v := by
  obtain ⟨hsame, ⟨hoff, hn, hp, hcnt, hfb⟩, hcur, ⟨evs, htr, hframes⟩, m, w, hchip, _, harray⟩ := h
  have hok : sectorIndex u.cur < capacitySectors u.size := by
    simp only [sectorIndex, capacitySectors, sectorBytes, hcur, hsame.size]
    omega
  have hcall := erase_call (hsame.clear hs) (hsame.ph.trans hph) (by rw [hcur, hsame.len]; exact hlt) hok hchip rfl
    (hsame.pollLimit ▸ hk)
  have hchip' := State.eraseCall_chip hchip rfl
  generalize hd : ({ d with mem := m, wel := w, bsy := 0 } : Device) = d' at hcall hchip'
  refine ⟨_, hcall, hsame.trans (State.eraseCall_reworked _ _), ?kept, ?cur, ?frames, d'.sectorErased u.cur, false, ?chip,
    fun _ => rfl, fun hc h24 x => ?array⟩
  case kept =>
    have := State.eraseCall_kept u (d'.mutated (d'.sectorErased u.cur))
    rwa [hoff, hn, hp, hcnt, hfb] at this
  case cur =>
    have hstride : (u.cur + BitVec.ofNat 32 sectorBytes).toNat = u.cur.toNat + 4096 := by
      rw [BitVec.toNat_add]
      simp only [sectorBytes, BitVec.toNat_ofNat]
      omega
    rw [State.eraseCall_cur, hstride]
    omega
  case frames =>
    refine ⟨_, (State.eraseCall_trace _ _).trans (by rw [htr, List.append_assoc]), ?_⟩
    rw [framesOf_append, List.filter_append, hframes, framesOf_playBus, filter_sentBy_erase, frameOf_sectorAddr, hcur,
      List.range_succ, List.map_append]
    rfl
  case chip =>
    rw [hchip', ← hd]
  case array =>
    have hm : d'.mem = m := by rw [← hd]
    have hcapd : d'.cap = d.cap := by rw [← hd]
    rw [Device.read_sectorErased (by omega) (by omega), hm, harray hc h24, hcur]
    by_cases hx : (s.addr.toNat + 4096 * i) / 4096 = x / 4096
    · rw [if_pos hx, if_pos (by omega)]
    · rw [if_neg hx]
      exact if_congr (by omega) rfl rfl

/-- The first test of the loop, after the range check (R227 S1, S2). -/
def State.eraseStart (s : State) (a e : Word) (d : Bytes) : State :=
  State.at { s.latch .erase a e d with cur := a } (.host .erase) 3 []

/-- A valid range brings `erase` to its loop. -/
theorem erase_starts {s : State} {a e : Word} {d : Bytes} (hs : s.Clear) (hlt : a.toNat < e.toNat)
    (hcap : e.toNat ≤ s.size.toNat * 256) :
    Leads ((s.latch .erase a e d).at (.host .erase) 1 []) (s.eraseStart a e d) := by
  have hgood : eraseRangeBad ((s.latch .erase a e d).at (.host .erase) 1 []) = false := by
    simp only [eraseRangeBad, Bool.or_eq_false_iff, decide_eq_false_iff_not]
    exact ⟨Nat.not_le.2 hlt, Nat.not_lt.2 hcap⟩
  have hchecked : Leads ((s.latch .erase a e d).at (.host .erase) 1 []) ((s.latch .erase a e d).at (.host .erase) 2 []) := by
    refine .routine hs rfl ?_
    simp only [routineStep, eraseStep, hgood]
    rfl
  exact hchecked.trans (.routine hs rfl rfl)

/-- Past the end of the range the loop ends the operation (R227 S3). -/
theorem erase_ends {s : State} {rest : List Record} (hs : s.Clear) (hph : s.ph = ⟨.host .erase, 3⟩ :: rest)
    (hcur : s.len.toNat ≤ s.cur.toNat) : Leads s (s.finish []) := by
  refine .routine hs hph ?_
  simp only [routineStep, eraseStep, if_pos hcur]

/-- Settles O59: `EraseLoop` after all the strides of R228. -/
theorem eraseRangeStridesOverTheSectors : Obligations.EraseRangeStridesOverTheSectors := by
  intro s a e d dev hs hc hb _ hk hrange h16 hsize
  have ⟨hph, hclear⟩ := hs
  obtain ⟨hlt, hcap⟩ : a.toNat < e.toNat ∧ e.toNat ≤ s.size.toNat * 256 := by
    simpa [rangeFails, not_or] using hrange
  refine ⟨_, exec_accepted (op := .erase) hs (.inl rfl) rfl, ?_⟩
  obtain ⟨u, hu, hsame, ⟨hoff, hn, hp, hcnt, hfb⟩, hcur, ⟨evs, htr, hframes⟩, m, w, hchip, hw, harray⟩ :=
    Leads.iterate (P := EraseLoop (s.eraseStart a e d) dev) (n := (e.toNat - a.toNat + 4095) / 4096) (.start rfl hc hb)
      (fun i u hi hloop => hloop.next hclear rfl hcap h16 hsize hk
        (show a.toNat + 4096 * i < e.toNat by omega))
  have hcur : u.cur.toNat = a.toNat + 4096 * ((e.toNat - a.toNat + 4095) / 4096) := hcur
  have hrun := ((erase_starts hclear hlt hcap).trans hu).trans
    (erase_ends (hsame.clear hclear) hsame.ph (hsame.len ▸ show e.toNat ≤ u.cur.toNat by omega))
  refine hrun.reaches ⟨?_, hcur, ⟨.cmd 0x3#4 a e d :: evs ++ [.done true .none 0#32 []], ?_, ?_⟩, m, ?_, harray⟩
  · have hu : u = _ := hsame
    rw [hu]
    simp [State.finish, State.eraseStart, State.at, State.latch, packResult, Cause.code, hph, hclear.1, hoff, hn, hp, hcnt, hfb]
  · simp [htr, hcnt, State.eraseStart, HostOp.code]
  · refine Eq.trans ?_ hframes
    simp [framesOf]
  · rw [hw (by omega)] at hchip
    exact hchip

end Sys2Proof.Machine
end

section
/-! Three host commands in a row (R97, R208): `write`, `wait_until_ready` and `read`, by the statements of the single
operations. -/

namespace Sys2Proof.Machine

/-- A `Cmd` at the head of the host's requests is taken in IDLE, and its operation runs (R38a, R262). -/
theorem Reaches.of_command {s : State} {op : HostOp} {a l : Word} {d : Bytes} {more : List HostReq} {Q : State → Prop}
    (hs : s.Quiet) (hhost : s.host = .cmd (commandWord op a l) d :: more)
    (h : ∃ t, exec (op.instr a l d) { s with host := more } = .next t ∧ Reaches t Q) : Reaches s Q := by
  obtain ⟨t, ht, hq⟩ := h
  refine .step s t Q ?_ hq
  rw [stepTakesTheCommand s _ d more hs hhost, decodeCommand_commandWord]
  exact ht

/-- An erased byte takes every value that is programmed into it (R97). -/
theorem erased_and (v : Byte) : 0xFF#8 &&& v = v := BitVec.allOnes_and

/-- The bytes of an answer after its header, read off one by one. -/
theorem drop_header_eq {r d : Bytes} (hlen : r.length = d.length + 4)
    (h : ∀ i, i < d.length → r[i + 4]? = some (d.getD i 0#8)) : r.drop 4 = d := by
  refine List.ext_getElem (by simp [hlen]) (fun i _ hi => ?_)
  have := h i hi
  rw [List.getElem?_eq_getElem (by omega), Option.some.injEq] at this
  rw [List.getElem_drop, ← List.getD_eq_getElem d 0#8 hi, ← this]
  congr 1
  omega

/-- Settles O60: O57, O52 and O46 one after the other; the array holds what was written, and the read returns it. -/
theorem writeWaitReadReturnsTheData : Obligations.WriteWaitReadReturnsTheData := by
  intro s a l l4 d dev hs hx hd hl4 hrange hrange4 hc hwf hb hk hcap h24 herased hhost
  have ⟨hph, hport, hresets⟩ := hs
  refine .trans _ _ _ (Reaches.of_command (op := .write) hs hhost
    (writeProgramsEveryByte { s with host := _ } a l d dev hs hd hrange hc hwf hb hk)) ?_
  rintro u ⟨hu, -, m, hchip, harray⟩
  have hwritten : ∀ i, i < l.toNat → m.read (a.toNat + i) = d.getD i 0#8 := fun i hi => by
    rw [(harray hcap h24).1 i hi, herased i hi, erased_and]
  have huquiet : u.Quiet := by rw [hu]; exact hs
  have huhost : u.host = _ := congrArg State.host hu
  have huexpose : u.params.exposeInternal = true := by rw [hu]; exact hx
  have hulimit : waitEnds u.pollLimit dev.k := by rw [hu]; exact hk
  refine .trans _ _ _ (Reaches.of_command (op := .waitUntilReady) huquiet huhost
    (waitPollsUntilTheDeviceIsReady { u with host := _ } 0#32 0#32 [] _ huquiet (.inr huexpose) hchip hulimit)) ?_
  rintro v hv
  have hvquiet : v.Quiet := by rw [hv]; exact huquiet
  have hvhost : v.host = _ := congrArg State.host hv
  have hvrange : rangeOk v.valid v.size a l4 := by rw [hv, hu]; exact hrange4
  have hvchip : v.chip = _ := congrArg State.chip hv
  refine .trans _ _ _ (Reaches.of_command (op := .read) hvquiet hvhost
    (readReturnsTheWholeAnswer { v with host := _ } a l4 [] _ hvquiet hvrange rfl)) ?_
  rintro w ⟨hw, hlen, -, hdata⟩
  obtain ⟨-, hdata⟩ := hdata _ hvchip rfl
  have hreturned : w.rbuf.drop 4 = d := by
    refine drop_header_eq (by omega) (fun i hi => (hdata i (by omega)).trans ?_)
    have hplace : ((a.setWidth 24).toNat % dev.cap + i) % dev.cap = a.toNat + i := by
      rw [BitVec.toNat_setWidth, Nat.mod_eq_of_lt (a := a.toNat) (b := 2 ^ 24) (by omega),
        Nat.mod_eq_of_lt (a := a.toNat) (b := dev.cap) (by omega), Nat.mod_eq_of_lt (by omega)]
    exact congrArg some ((congrArg m.read hplace).trans (hwritten i (by omega)))
  refine .refl w _ ⟨?_, ?_, ?_, w.rbuf, ?_, hreturned, rfl⟩
  · rw [hw]
    exact ⟨hvquiet.1, hvquiet.2.1⟩
  · rw [hw]
  · rw [hw]
  · rw [hw]
    simp

end Sys2Proof.Machine
end

section
/-! The two encodings are inverse to each other (R110 to R124, R127, R130): each format read back, the opcodes that decode,
and the command word put together again. -/

namespace Sys2Proof.Machine

/-! ### Decoding an encoding -/

/-- Every instruction is a wire frame or a host operation (R2). -/
theorem isWire_or_hostOp (i : Instr) : isWire i = true ∨ ∃ op a l d, i = HostOp.instr op a l d := by
  cases i with
  | wren | wrdi | vsrwe | rdsr1 | rdsr2 | jedecid | dataRead | pp | se | be32 | be64 | ce => exact .inl rfl
  | mount a l d => exact .inr ⟨.mount, a, l, d, rfl⟩
  | read a l d => exact .inr ⟨.read, a, l, d, rfl⟩
  | write a l d => exact .inr ⟨.write, a, l, d, rfl⟩
  | erase a l d => exact .inr ⟨.erase, a, l, d, rfl⟩
  | eraseAll a l d => exact .inr ⟨.eraseAll, a, l, d, rfl⟩
  | checkParam a l d => exact .inr ⟨.checkParam, a, l, d, rfl⟩
  | readStatus a l d => exact .inr ⟨.readStatus, a, l, d, rfl⟩
  | waitUntilReady a l d => exact .inr ⟨.waitUntilReady, a, l, d, rfl⟩
  | writeEnable a l d => exact .inr ⟨.writeEnable, a, l, d, rfl⟩
  | writeDisable a l d => exact .inr ⟨.writeDisable, a, l, d, rfl⟩
  | volatileStatusWriteEnable a l d => exact .inr ⟨.volatileStatusWriteEnable, a, l, d, rfl⟩
  | readJedec a l d => exact .inr ⟨.readJedec, a, l, d, rfl⟩
  | pageProgram a l d => exact .inr ⟨.pageProgram, a, l, d, rfl⟩
  | sectorErase a l d => exact .inr ⟨.sectorErase, a, l, d, rfl⟩
  | blockErase64k a l d => exact .inr ⟨.blockErase64k, a, l, d, rfl⟩
  | blockErase32k a l d => exact .inr ⟨.blockErase32k, a, l, d, rfl⟩

/-- A wire instruction stands on the transfer port (R110). -/
theorem encode_of_isWire {i : Instr} (h : isWire i = true) : encode i = .frame (frameOf i) := by
  cases i with
  | wren | wrdi | vsrwe | rdsr1 | rdsr2 | jedecid | dataRead | pp | se | be32 | be64 | ce => rfl
  | _ => exact (Bool.false_ne_true h).elim

/-- Settles O1: a frame is read back by `decodeFrame_frameOf`, a command word by `decodeCommand_commandWord`. -/
theorem decodeReadsBackEncode : Obligations.DecodeReadsBackEncode := by
  intro i hwf
  rcases isWire_or_hostOp i with hw | ⟨op, a, l, d, rfl⟩
  · rw [encode_of_isWire hw]
    exact decodeFrame_frameOf hw hwf
  · rw [encode_instr]
    exact congrArg Except.ok (decodeCommand_commandWord op a l d)

/-- Settles O4: the decoder evaluated on the nine packets. -/
theorem wordsFromTheSpecDecode : Obligations.WordsFromTheSpecDecode := ⟨rfl, rfl, rfl, rfl, rfl, rfl, rfl, rfl, rfl⟩

/-! ### The formats of R111, read backwards -/

theorem decodeW1_ok {op : Byte} {i j : Instr} {rest : Bytes} (h : decodeW1 op i rest = .ok j) : j = i ∧ rest = [] := by
  cases rest with
  | nil => cases h; exact ⟨rfl, rfl⟩
  | cons b rest => cases h

theorem decodeFill_ok {op : Byte} {i j : Instr} {k : Nat} {rest : Bytes} (h : decodeFill op i k rest = .ok j) :
    j = i ∧ rest = List.replicate k fillByte := by
  unfold decodeFill at h
  split_ifs at h with hlen hfill
  cases h
  exact ⟨rfl, List.eq_replicate_iff.2 ⟨not_not.1 hlen, by simpa using hfill⟩⟩

theorem decodeWA_ok {op : Byte} {mk : Addr24 → Instr} {mask : Addr24 → Addr24} {rest : Bytes} {i : Instr}
    (h : decodeWA op mk mask rest = .ok i) : ∃ a, mask a = a ∧ i = mk a ∧ rest = addrBytes a := by
  unfold decodeWA at h
  split at h
  · rename_i b2 b1 b0
    split_ifs at h with hmask
    cases h
    exact ⟨_, hmask, rfl, (addrBytes_joinAddr b2 b1 b0).symm⟩
  · cases h

theorem decodeWAP_ok {op : Byte} {rest : Bytes} {i : Instr} (h : decodeWAP op rest = .ok i) :
    ∃ a d, i = .pp a d ∧ rest = addrBytes a ++ d := by
  unfold decodeWAP at h
  split at h
  · rename_i b2 b1 b0 d
    split_ifs at h
    cases h
    exact ⟨_, d, rfl, by rw [addrBytes_joinAddr]; rfl⟩
  · cases h

/-- The bytes of a joined address, taken out one by one. -/
theorem extract_joinAddr (b2 b1 b0 : Byte) :
    (joinAddr b2 b1 b0).extractLsb' 16 8 = b2 ∧ (joinAddr b2 b1 b0).extractLsb' 8 8 = b1 := by
  have h := addrBytes_joinAddr b2 b1 b0
  simp only [addrBytes, List.cons.injEq] at h
  obtain ⟨h2, h1, _⟩ := h
  exact ⟨h2, h1⟩

/-- A data-read frame has the address bytes that its length admits, and fill after them (R119). -/
theorem decodeWAR_ok {op : Byte} {rest : Bytes} {i : Instr} (h : decodeWAR op rest = .ok i) :
    ∃ a l, i = .dataRead a l ∧ dataReadFrame a l = opcDataRead :: rest := by
  unfold decodeWAR at h
  split at h
  · cases h
    exact ⟨_, _, rfl, rfl⟩
  · rename_i b2
    cases h
    refine ⟨_, _, rfl, ?_⟩
    rw [dataReadFrame_two _ rfl, (extract_joinAddr b2 0#8 0#8).1]
  · rename_i b2 b1
    cases h
    obtain ⟨h2, h1⟩ := extract_joinAddr b2 b1 0#8
    refine ⟨_, _, rfl, ?_⟩
    rw [dataReadFrame_three _ rfl, h2, h1]
  · rename_i b2 b1 b0 f
    split_ifs at h with hlen hfill
    cases h
    refine ⟨_, _, rfl, ?_⟩
    have hl : (BitVec.ofNat 32 (f.length + 4)).toNat = f.length + 4 := Nat.mod_eq_of_lt (by omega)
    have hf : f = List.replicate f.length fillByte := List.eq_replicate_iff.2 ⟨rfl, by simpa using hfill⟩
    rw [dataReadFrame_whole_header _ (by omega), hl, addrBytes_joinAddr, Nat.add_sub_cancel, ← hf]
    rfl

/-! ### Opcodes -/

/-- Settles O3: the twelve tests of the decoder fail one after the other. -/
theorem unknownOpcodeIsRefused : Obligations.UnknownOpcodeIsRefused := by
  intro op rest h
  simp only [List.mem_cons, List.not_mem_nil, or_false, not_or] at h
  simp only [decodeFrame, opcWren, opcWrdi, opcVsrwe, opcRdsr1, opcRdsr2, opcJedecid, opcDataRead, opcPp, opcSe, opcBe32,
    opcBe64, opcCe, h, if_false]

/-- Only the twelve opcodes of R112 begin a frame that decodes. -/
theorem mem_opcodes_of_decodeFrame {op : Byte} {rest : Bytes} {i : Instr} (h : decodeFrame (op :: rest) = .ok i) :
    op ∈ [0x06#8, 0x04#8, 0x50#8, 0x05#8, 0x35#8, 0x9F#8, 0x03#8, 0x02#8, 0x20#8, 0x52#8, 0xD8#8, 0xC7#8] := by
  by_contra hop
  rw [unknownOpcodeIsRefused op rest hop] at h
  cases h

/-- What a frame decodes to has that frame for its encoding (R110 to R124). -/
theorem encode_of_decodeFrame {b : Bytes} {i : Instr} (h : decodeFrame b = .ok i) : encode i = .frame b := by
  cases b with
  | nil => cases h
  | cons op rest =>
    have hop := mem_opcodes_of_decodeFrame h
    simp only [List.mem_cons, List.not_mem_nil, or_false] at hop
    rcases hop with rfl | rfl | rfl | rfl | rfl | rfl | rfl | rfl | rfl | rfl | rfl | rfl
    · obtain ⟨rfl, rfl⟩ := decodeW1_ok (op := opcWren) (i := .wren) h
      rfl
    · obtain ⟨rfl, rfl⟩ := decodeW1_ok (op := opcWrdi) (i := .wrdi) h
      rfl
    · obtain ⟨rfl, rfl⟩ := decodeW1_ok (op := opcVsrwe) (i := .vsrwe) h
      rfl
    · obtain ⟨rfl, rfl⟩ := decodeFill_ok (op := opcRdsr1) (i := .rdsr1) (k := 1) h
      rfl
    · obtain ⟨rfl, rfl⟩ := decodeFill_ok (op := opcRdsr2) (i := .rdsr2) (k := 1) h
      rfl
    · obtain ⟨rfl, rfl⟩ := decodeFill_ok (op := opcJedecid) (i := .jedecid) (k := 3) h
      rfl
    · obtain ⟨a, l, rfl, hframe⟩ := decodeWAR_ok (op := opcDataRead) h
      exact congrArg Packet.frame hframe
    · obtain ⟨a, d, rfl, rfl⟩ := decodeWAP_ok (op := opcPp) h
      rfl
    · obtain ⟨a, hmask, rfl, rfl⟩ := decodeWA_ok (op := opcSe) (mk := .se) (mask := sectorMask) h
      exact congrArg (fun x => Packet.frame (opcSe :: addrBytes x)) hmask
    · obtain ⟨a, _, rfl, rfl⟩ := decodeWA_ok (op := opcBe32) (mk := .be32) (mask := id) h
      rfl
    · obtain ⟨a, hmask, rfl, rfl⟩ := decodeWA_ok (op := opcBe64) (mk := .be64) (mask := block64Mask) h
      exact congrArg (fun x => Packet.frame (opcBe64 :: addrBytes x)) hmask
    · obtain ⟨rfl, rfl⟩ := decodeW1_ok (op := opcCe) (i := .ce) h
      rfl

/-- A command word is the operation code and the two operands that are read from it (R130). -/
theorem commandWord_extract (w : BitVec 68) :
    commandWord (opOfCode (w.extractLsb' 64 4)) (w.extractLsb' 32 32) (w.extractLsb' 0 32) = w := by
  rw [commandWord, code_opOfCode,
    BitVec.extractLsb'_append_extractLsb'_eq_extractLsb' (start₂ := 64) (start₁ := 32) (len₁ := 32) rfl,
    BitVec.extractLsb'_append_extractLsb'_eq_extractLsb' (start₂ := 32) (start₁ := 0) (len₁ := 32) rfl]
  exact extract_whole w

/-- Settles O2: a frame by its format (`encode_of_decodeFrame`), a command word by its three fields. -/
theorem encodeWritesBackDecode : Obligations.EncodeWritesBackDecode := by
  intro p i h
  cases p with
  | frame b => exact encode_of_decodeFrame h
  | command w d =>
    cases h
    rw [decodeCommand, encode_instr, encodeCommand, commandWord_extract]

/-- Settles O14: of the twelve opcodes that decode (O3), 0x52 decodes to `BE32` alone, which is no frame of the block. -/
theorem sentFramesStartWithElevenOpcodes : Obligations.SentFramesStartWithElevenOpcodes := by
  intro b hb
  obtain ⟨i, hdec, _, hbe32⟩ := (blockFrame_iff b).1 hb
  cases b with
  | nil => cases hdec
  | cons op rest =>
    refine ⟨op, rest, rfl, ?_⟩
    have hop := mem_opcodes_of_decodeFrame hdec
    have h52 : op ≠ 0x52#8 := by
      rintro rfl
      obtain ⟨a, _, hi, _⟩ := decodeWA_ok (op := opcBe32) (mk := .be32) (mask := id) hdec
      exact hbe32 a hi
    simp only [List.mem_cons, List.not_mem_nil, or_false] at hop ⊢
    tauto

end Sys2Proof.Machine
end

section
/-! What the fixed frames do (R113 to R118, R121 to R124), and the stops of acceptance (R132, R262). -/

namespace Sys2Proof.Machine

/-- Settles O21: each gate is the exchange of its opcode, and its frame mutates nothing. -/
theorem gateFramesOnlySendTheirOpcode : Obligations.GateFramesOnlySendTheirOpcode := by
  intro s i op h
  have hgate : exec i s = .next (s.exchange [op]) ∧ mutatingFrame [op] = false := by
    simp only [List.mem_cons, Prod.mk.injEq, List.not_mem_nil, or_false] at h
    rcases h with ⟨rfl, rfl⟩ | ⟨rfl, rfl⟩ | ⟨rfl, rfl⟩ <;> exact ⟨rfl, rfl⟩
  obtain ⟨hexec, hframe⟩ := hgate
  exact ⟨State.response_length s [op], _, hexec, rfl, Chip.read_after s.chip hframe⟩

/-- Settles O22: the two status frames are exchanged, byte 1 is captured, and neither frame mutates. -/
theorem statusFramesCaptureByteOne : Obligations.StatusFramesCaptureByteOne := fun s =>
  ⟨State.response_length s _, State.response_length s _,
    ⟨_, rfl, rfl, Chip.read_after s.chip (req := [opcRdsr1, fillByte]) rfl⟩,
    ⟨_, rfl, rfl, Chip.read_after s.chip (req := [opcRdsr2, fillByte]) rfl⟩⟩

/-- Settles O23: the answer has four bytes (R9), which `jedecOf` packs, and the frame mutates nothing. -/
theorem jedecFrameCapturesFourBytes : Obligations.JedecFrameCapturesFourBytes := by
  intro s
  obtain ⟨b0, b1, b2, b3, hresp⟩ := List.length_eq_four.1 (State.response_length s [0x9F#8, 0x00#8, 0x00#8, 0x00#8])
  have hjedec : jedecOf (s.response [0x9F#8, 0x00#8, 0x00#8, 0x00#8]) = b0 ++ b1 ++ b2 ++ b3 := by
    rw [hresp]
    rfl
  refine ⟨b0, b1, b2, b3, hresp, _, rfl, ?_, Chip.read_after s.chip (req := [opcJedecid, fillByte, fillByte, fillByte]) rfl⟩
  rw [← hjedec, ← hresp]
  rfl

/-- Settles O26: the erase frames are those of `encode`. -/
theorem eraseFramesCarryMaskedAddresses : Obligations.EraseFramesCarryMaskedAddresses := by
  intro s a i req h
  simp only [List.mem_cons, Prod.mk.injEq, List.not_mem_nil, or_false] at h
  rcases h with ⟨rfl, rfl⟩ | ⟨rfl, rfl⟩ | ⟨rfl, rfl⟩ <;> exact ⟨_, rfl, rfl⟩

/-- Settles O27: in the place of the frame stands the raise of `Unimplemented` (R224, R247). -/
theorem blockErase32kFrameIsNeverSent : Obligations.BlockErase32kFrameIsNeverSent := fun _ _ => ⟨_, rfl, rfl⟩

/-- Outside IDLE a `Cmd` stops the machine (R262). -/
theorem State.accept_busy {s : State} (h : ¬ s.Idle) (op : HostOp) (a l : Word) (d : Bytes) :
    s.accept op a l d = .fault .hostNotIdle := if_pos (not_and_or.1 h)

/-- In IDLE a `Cmd` with another amount of data than its operation takes stops the machine (R132). -/
theorem State.accept_malformed {s : State} (h : s.Idle) {op : HostOp} {l : Word} {d : Bytes}
    (hd : wfCmdData op l d = false) (a : Word) : s.accept op a l d = .fault .malformedCommand := by
  obtain ⟨hph, hport⟩ := h
  simp [State.accept, hph, hport, hd]

/-- The operations that take data ask for exactly `len` bytes of it (R132). -/
theorem wfCmdData_eq_false {op : HostOp} {l : Word} {d : Bytes} (hop : op.takesData = true) (hd : d.length ≠ l.toNat) :
    wfCmdData op l d = false := by
  simp [wfCmdData, hop, hd]

/-- Settles O35: the two stops of acceptance. -/
theorem brokenHostContractStops : Obligations.BrokenHostContractStops := by
  intro s op a l d
  rw [exec_instr]
  refine ⟨fun h => State.accept_busy h op a l d, fun hidle hop hd => ?_⟩
  have htakes : op.takesData = true := by rcases hop with rfl | rfl <;> rfl
  exact State.accept_malformed hidle (wfCmdData_eq_false htakes hd) a

end Sys2Proof.Machine
end

section
/-! The range check of R151 and the host operation `check_param` (R152, R155). -/

namespace Sys2Proof.Machine

/-- A valid range starts inside the chip and ends at most 255 bytes beyond it (R155). -/
theorem rangeOk_bounds {v : Bool} {size a n : Word} (h : rangeOk v size a n) :
    1 ≤ n.toNat ∧ a.toNat < size.toNat * 256 ∧ a.toNat + n.toNat ≤ size.toNat * 256 + 255 := by
  obtain ⟨_, hn, hstart, hend⟩ := h
  have hpos : n.toNat ≠ 0 := fun h0 => hn (BitVec.eq_of_toNat_eq h0)
  omega

/-- Settles O38: the four tests are `State.paramsValid_iff`, the bounds follow from them. -/
theorem rangeCheckMakesTheFourTests : Obligations.RangeCheckMakesTheFourTests := fun s a n =>
  ⟨s.paramsValid_iff a n, fun h => rangeOk_bounds ((s.paramsValid_iff a n).1 h)⟩

/-- The only step of `check_param`, the range being valid, ends the operation (R152). -/
theorem checkParam_passes {s : State} (hs : s.Clear) (hph : s.ph = [⟨.host .checkParam, 1⟩])
    (hrange : rangeOk s.valid s.size s.addr s.len) : Leads s (s.finish []) := by
  refine .routine hs hph ?_
  simp only [routineStep, checkParamStep, (s.paramsValid_iff _ _).2 hrange, if_true]

/-- The only step of `check_param`, the range being invalid, raises `ParamRange` (R152). -/
theorem checkParam_fails {s : State} (hs : s.Clear) (hph : s.ph = [⟨.host .checkParam, 1⟩])
    (hrange : ¬ rangeOk s.valid s.size s.addr s.len) : Leads s (s.raise .paramRange) := by
  refine .routine hs hph ?_
  simp only [routineStep, checkParamStep, if_neg (mt (s.paramsValid_iff _ _).1 hrange)]

/-- Settles O40: acceptance, and then one step, whose outcome is that of the check. -/
theorem checkParamAnswersTheCheck : Obligations.CheckParamAnswersTheCheck := by
  intro s a l d hs hx
  have ⟨hph, hclear⟩ := hs
  refine ⟨_, exec_accepted (op := .checkParam) hs hx rfl, ?_⟩
  by_cases hrange : rangeOk s.valid s.size a l
  · have hrun : Leads ((s.latch .checkParam a l d).at (.host .checkParam) 1 []) _ :=
      checkParam_passes hclear rfl hrange
    refine hrun.reaches ⟨fun _ => ?_, fun hbad => absurd hrange hbad⟩
    simp [State.finish, State.at, State.latch, packResult, Cause.code, HostOp.code, hph]
  · have hrun : Leads ((s.latch .checkParam a l d).at (.host .checkParam) 1 []) _ :=
      checkParam_fails hclear rfl hrange
    refine hrun.reaches ⟨fun hok => absurd hok hrange, fun _ => ?_⟩
    simp [State.raise, State.at, State.latch, packResult, Cause.code, HostOp.code, hph, hclear.1]

end Sys2Proof.Machine
end

section
/-! The write-enable bracket (R172, R291): when the sequencer owes the chip a mutating frame, and that every step keeps the
last frame before one the write-enable. -/

namespace Sys2Proof.Machine

/-! ### The last frame of a trace -/

theorem lastSent_delay (tr : List Event) (ms : Nat) : lastSent (tr ++ [.delay ms]) = lastSent tr := by
  unfold lastSent
  rw [List.reverse_append]
  rfl

theorem lastSent_xfer (tr : List Event) (req resp : Bytes) : lastSent (tr ++ [.xfer req resp]) = some req := by
  unfold lastSent
  rw [List.reverse_append]
  rfl

/-- An event keeps the bracket unless it is a mutating frame without a write-enable before it (R291). -/
theorem Bracketed.snoc {tr : List Event} {e : Event} (h : Bracketed tr)
    (he : ∀ req resp, e = .xfer req resp → mutatingFrame req = true → lastSent tr = some (frameOf .wren)) :
    Bracketed (tr ++ [e]) := by
  intro before req resp after htr hm
  rcases List.eq_nil_or_concat after with rfl | ⟨after, last, rfl⟩
  · obtain ⟨rfl, hlast⟩ := List.append_inj' htr rfl
    exact he req resp (List.singleton_inj.1 hlast) hm
  · have hinit : tr ++ [e] = (before ++ .xfer req resp :: after) ++ [last] := by simpa using htr
    exact h before req resp after (List.append_inj' hinit rfl).1 hm

/-- An event that is no transfer keeps the bracket. -/
theorem Bracketed.snoc_other {tr : List Event} {e : Event} (h : Bracketed tr) (he : ∀ req resp, e ≠ .xfer req resp) :
    Bracketed (tr ++ [e]) :=
  h.snoc (fun req resp heq => absurd heq (he req resp))

/-! ### When the last frame has to be the write-enable -/

/-- A record at which, the ports being free, the last frame is the write-enable. -/
def Record.Armed (r : Record) : Prop := r.enabled = true ∨ r = ⟨.gate .writeEnable, 3⟩

/-- The block is about to send a mutating frame, or has one on the port: the cases of `BracketOk`. -/
def State.Armed (s : State) : Prop :=
  (∃ b, s.port = some (.xfer b) ∧ mutatingFrame b = true) ∨
  ∃ r rest, s.ph = r :: rest ∧ (r.enabled = true ∨ (r = ⟨.gate .writeEnable, 3⟩ ∧ s.port = none))

theorem State.bracketOk_iff (s : State) :
    s.BracketOk ↔ Bracketed s.trace ∧ (s.Armed → lastSent s.trace = some (frameOf .wren)) := by
  constructor
  · rintro ⟨htr, hport, henabled, hgate⟩
    refine ⟨htr, ?_⟩
    rintro (⟨b, hb, hm⟩ | ⟨r, rest, hph, hr | ⟨rfl, hfree⟩⟩)
    · exact hport b hb hm
    · exact henabled r rest hph hr
    · exact hgate rest hph hfree
  · rintro ⟨htr, harmed⟩
    exact ⟨htr, fun b hb hm => harmed (.inl ⟨b, hb, hm⟩), fun r rest hph hr => harmed (.inr ⟨r, rest, hph, .inl hr⟩),
      fun rest hph hfree => harmed (.inr ⟨_, rest, hph, .inr ⟨rfl, hfree⟩⟩)⟩

theorem Record.enabled_iff (r : Record) : r.enabled = true ↔ r = ⟨.pageProgram, 3⟩ ∨ r = ⟨.pageProgram, 4⟩ ∨
    r = ⟨.sectorErase, 3⟩ ∨ r = ⟨.blockErase64k, 3⟩ ∨ r = ⟨.host .eraseAll, 3⟩ ∨ r = ⟨.gate .writeEnable, 4⟩ := by
  simp [Record.enabled, or_assoc]

theorem Record.armed_iff (r : Record) : r.Armed ↔ r = ⟨.pageProgram, 3⟩ ∨ r = ⟨.pageProgram, 4⟩ ∨
    r = ⟨.sectorErase, 3⟩ ∨ r = ⟨.blockErase64k, 3⟩ ∨ r = ⟨.host .eraseAll, 3⟩ ∨ r = ⟨.gate .writeEnable, 4⟩ ∨
    r = ⟨.gate .writeEnable, 3⟩ := by
  simp [Record.Armed, Record.enabled_iff, or_assoc]

/-- With the ports free, only the record on top counts. -/
theorem State.Armed.top {t : State} (h : t.Armed) (hport : t.port = none) : ∃ r rest, t.ph = r :: rest ∧ r.Armed := by
  rcases h with ⟨b, hb, _⟩ | ⟨r, rest, hph, hr⟩
  · cases hport.symm.trans hb
  · exact ⟨r, rest, hph, hr.imp_right And.left⟩

/-- With a request outstanding, the record on top is an enabled one or the frame mutates. -/
theorem State.Armed.awaiting {t : State} {q : PortReq} (h : t.Armed) (hport : t.port = some q) :
    (∃ b, q = .xfer b ∧ mutatingFrame b = true) ∨ ∃ r rest, t.ph = r :: rest ∧ r.enabled = true := by
  rcases h with ⟨b, hb, hm⟩ | ⟨r, rest, hph, hr | ⟨_, hfree⟩⟩
  · exact .inl ⟨b, Option.some.inj (hport.symm.trans hb), hm⟩
  · exact .inr ⟨r, rest, hph, hr⟩
  · cases hport.symm.trans hfree

theorem State.not_armed_of_idle {t : State} (hph : t.ph = []) (hport : t.port = none) : ¬ t.Armed := by
  intro h
  obtain ⟨r, rest, hr, _⟩ := h.top hport
  cases hph.symm.trans hr

/-! ### The return of a request -/

/-- An enabled record awaits no frame: its write-enable has returned, and its own frame is not yet sent. -/
theorem Record.not_mayAwait_of_enabled {r : Record} (hr : r.enabled = true) (b : Bytes) : ¬ r.mayAwait (.xfer b) := by
  intro hm
  rcases r.enabled_iff.1 hr with rfl | rfl | rfl | rfl | rfl | rfl <;> simp [Record.mayAwait] at hm

/-- The return of a request keeps the bracket. -/
theorem portStep_bracketOk {s t : State} {q : PortReq} (hphase : s.PhaseOk) (hs : s.BracketOk) (hport : s.port = some q)
    (h : portStep q s = .next t) : t.BracketOk := by
  obtain ⟨htr, harmed⟩ := s.bracketOk_iff.1 hs
  obtain ⟨r, rest, hph, hm⟩ := hphase.2 q hport
  rw [State.bracketOk_iff]
  rcases portStep_cases h with ⟨ms, rfl, rfl⟩ | rfl | ⟨req, i, _, _, _, _, _, rfl, hdec, rfl⟩
  · refine ⟨htr.snoc_other nofun, fun ht => (lastSent_delay s.trace ms).trans (harmed (.inr ⟨r, rest, hph, .inl ?_⟩))⟩
    obtain ⟨r', rest', hph', hr'⟩ := ht.top rfl
    cases hph.symm.trans hph'
    refine hr'.resolve_right ?_
    rintro rfl
    simp [Record.mayAwait] at hm
  · exact ⟨htr.snoc_other nofun, fun ht => absurd ht (State.not_armed_of_idle rfl rfl)⟩
  · obtain ⟨_, hframe⟩ := isWire_of_encode (encode_of_decodeFrame hdec)
    rw [hframe]
    refine ⟨htr.snoc (fun req' resp' heq hmut => ?_), fun ht => ?_⟩
    · cases heq
      exact harmed (.inl ⟨req, hport, hmut⟩)
    · obtain ⟨r', rest', hph', hr'⟩ := ht.top rfl
      cases hph.symm.trans hph'
      refine (lastSent_xfer s.trace req _).trans (congrArg some ?_)
      rcases hr' with hr' | rfl
      · exact absurd hm (Record.not_mayAwait_of_enabled hr' req)
      · simpa [Record.mayAwait, Gate.frame] using hm

/-! ### The steps of the routines -/

/-- The routines that send a write-enable or, after one, a mutating frame. -/
def Routine.bracketing : Routine → Bool
  | .pageProgram | .sectorErase | .blockErase64k | .host .eraseAll | .gate .writeEnable => true
  | _ => false

theorem Routine.eq_of_bracketing {rt : Routine} (h : rt.bracketing = true) : rt = .pageProgram ∨ rt = .sectorErase ∨
    rt = .blockErase64k ∨ rt = .host .eraseAll ∨ rt = .gate .writeEnable := by
  unfold Routine.bracketing at h
  split at h <;> simp_all

theorem Record.Armed.bracketing {r : Record} (h : r.Armed) : r.routine.bracketing = true := by
  rcases r.armed_iff.1 h with rfl | rfl | rfl | rfl | rfl | rfl | rfl <;> rfl

theorem Record.Armed.three_le_step {r : Record} (h : r.Armed) : 3 ≤ r.step := by
  rcases r.armed_iff.1 h with rfl | rfl | rfl | rfl | rfl | rfl | rfl <;> decide

/-- Only a gate returns to a record that is armed. -/
theorem Record.Armed.callee {c : Record} {rt : Routine} (h : c.Armed) (hc : c.routine.callAt (c.step - 1) = some rt) :
    rt = .gate .writeEnable := by
  rcases c.armed_iff.1 h with rfl | rfl | rfl | rfl | rfl | rfl | rfl <;> cases hc <;> rfl

/-- Only the bracketing routines send mutating frames. -/
theorem Record.bracketing_of_mayAwait {r : Record} {b : Bytes} (hm : r.mayAwait (.xfer b)) (hb : mutatingFrame b = true) :
    r.routine.bracketing = true := by
  simp only [Record.mayAwait, PortReq.xfer.injEq, reduceCtorEq, exists_false, and_false, false_or] at hm
  rcases hm with ⟨-, rfl⟩ | ⟨-, rfl⟩ | ⟨g, -, rfl⟩ | ⟨-, rfl⟩ | ⟨rfl, -⟩ | ⟨rfl, -⟩ | ⟨rfl, -⟩ | ⟨rfl, -⟩ | ⟨-, a, l, rfl⟩
  · cases hb
  · cases hb
  · cases g <;> cases hb
  · cases hb
  · rfl
  · rfl
  · rfl
  · rfl
  · exact absurd hb (by rw [show frameOf (.dataRead a l) = dataReadFrame a l from rfl, mutatingFrame_dataReadFrame]; decide)

/-- Before step 3 no record is armed. -/
theorem State.not_armed_at {u : State} (hport : u.port = none) {rt : Routine} {k : Nat} {rest : List Record} (hk : k < 3) :
    ¬ (u.at rt k rest).Armed := by
  intro h
  obtain ⟨r, below, hph, hr⟩ := h.top hport
  cases hph
  exact absurd hr.three_le_step (Nat.not_le.2 hk)

/-- A call leaves the callee's first step on top, which is not armed. -/
theorem State.not_armed_call {s : State} (hport : s.port = none) (callee rt : Routine) (k : Nat) (rest : List Record) :
    ¬ (s.call callee rt k rest).Armed := by
  intro h
  exact State.not_armed_at (u := { s with ph := ⟨rt, k⟩ :: rest }) hport (rt := callee) (k := 1) (by decide) h

/-- A return of another routine than the write-enable gate leaves a record on top that is not armed. -/
theorem State.not_armed_ret {u : State} {r : Record} {rest : List Record} (hport : u.port = none)
    (hl : legalStack (r :: rest) = true) (hr : r.routine ≠ .gate .writeEnable) : ¬ (u.ret rest).Armed := by
  intro h
  obtain ⟨c, below, rfl, hc⟩ := h.top hport
  simp only [legalStack, Bool.and_eq_true, decide_eq_true_eq] at hl
  obtain ⟨⟨_, hcall⟩, _⟩ := hl
  exact hr (hc.callee hcall)

/-- The steps of the other routines do not arm the block. -/
theorem Moves.not_armed {s t : State} {r : Record} {rest : List Record} (hl : legalStack (r :: rest) = true)
    (hport : s.port = none) (hb : r.routine.bracketing = false) (hm : Moves s r rest (.next t)) : ¬ t.Armed := by
  have hrec : ∀ k, ¬ Record.Armed ⟨r.routine, k⟩ := fun k h => Bool.false_ne_true (hb.symm.trans h.bracketing)
  intro ht
  cases hm with
  | goOn u k hu _ _ =>
    obtain ⟨r', below, hph, hr⟩ := ht.top (hu.port.trans hport)
    cases hph
    exact hrec k hr
  | call callee k _ _ => exact State.not_armed_call hport _ _ _ _ ht
  | ret u hu _ => exact State.not_armed_ret (hu.port.trans hport) hl (by rintro h; rw [h] at hb; cases hb) ht
  | request u k req _ _ hmay _ =>
    rcases ht.awaiting rfl with ⟨b, hq, hmut⟩ | ⟨r', below, hph, hr⟩
    · cases hq
      exact Bool.false_ne_true (hb.symm.trans (Record.bracketing_of_mayAwait (r := ⟨r.routine, k⟩) hmay hmut))
    · cases hph
      exact hrec k (.inl hr)
  | delay ms k _ _ =>
    rcases ht.awaiting rfl with ⟨b, hq, _⟩ | ⟨r', below, hph, hr⟩
    · cases hq
    · cases hph
      exact hrec k (.inl hr)
  | finish u rdata hu => exact State.not_armed_of_idle (t := u.finish rdata) rfl (hu.port.trans hport) ht
  | raise u c _ => exact State.not_armed_of_idle (t := u.raise c) rfl rfl ht

theorem pageProgramStep_arms {s t : State} {rest : List Record} (hport : s.port = none) {k : Nat} (h1 : 1 ≤ k) (h2 : k ≤ 6)
    (hl : legalStack (⟨.pageProgram, k⟩ :: rest) = true) (h : pageProgramStep k rest s = .next t) (ht : t.Armed) :
    Record.Armed ⟨.pageProgram, k⟩ := by
  interval_cases k <;> cases h
  · exact absurd ht (State.not_armed_call hport _ _ _ _)
  · exact absurd ht (State.not_armed_call hport _ _ _ _)
  · exact .inl rfl
  · exact .inl rfl
  · exact absurd ht (State.not_armed_call hport _ _ _ _)
  · exact absurd ht (State.not_armed_ret hport hl nofun)

/-- A check leads to step 2 or to IDLE. -/
theorem State.not_armed_check {s : State} (hport : s.port = none) (c : Prop) [Decidable c] (cause : Cause) (rt : Routine)
    (rest : List Record) : ¬ (if c then s.raise cause else s.at rt 2 rest).Armed := by
  split
  · exact State.not_armed_of_idle (t := s.raise cause) rfl rfl
  · exact State.not_armed_at hport (by decide)

/-- Of the steps that the erases have in common, the third is armed and no other arms the block. -/
theorem EraseRoutine.arms {rt : Routine} {ok : State → Prop} {frame : Word → Bytes} (hr : EraseRoutine rt ok frame)
    {s t : State} {rest : List Record} (hport : s.port = none) (hthird : Record.Armed ⟨rt, 3⟩)
    (hcheck : ∀ t, routineStep ⟨rt, 1⟩ rest s = .next t → ¬ t.Armed)
    (hend : ∀ t, routineStep ⟨rt, 6⟩ rest s = .next t → ¬ t.Armed) {k : Nat} (h1 : 1 ≤ k) (h2 : k ≤ 6)
    (h : routineStep ⟨rt, k⟩ rest s = .next t) (ht : t.Armed) : Record.Armed ⟨rt, k⟩ := by
  interval_cases k
  · exact absurd ht (hcheck t h)
  · cases (hr.enable s rest).symm.trans h
    exact absurd ht (State.not_armed_call hport _ _ _ _)
  · exact hthird
  · cases (hr.wait s rest).symm.trans h
    exact absurd ht (State.not_armed_call hport _ _ _ _)
  · cases (hr.disable s rest).symm.trans h
    exact absurd ht (State.not_armed_call hport _ _ _ _)
  · exact absurd ht (hend t h)

theorem gateStep_arms {s t : State} {rest : List Record} {k : Nat} (h1 : 1 ≤ k) (h2 : k ≤ 4)
    (h : gateStep .writeEnable k rest s = .next t) (ht : t.Armed) : Record.Armed ⟨.gate .writeEnable, k⟩ := by
  interval_cases k <;> cases h
  · rcases ht.awaiting rfl with ⟨b, hq, _⟩ | ⟨r, below, hph, hr⟩
    · cases hq
    · cases hph
      cases hr
  · rcases ht.awaiting rfl with ⟨b, hq, hmut⟩ | ⟨r, below, hph, hr⟩
    · cases hq
      cases hmut
    · cases hph
      cases hr
  · exact .inr rfl
  · exact .inl rfl

/-- A step of a routine arms the block at an armed record only. -/
theorem routineStep_arms {s t : State} {r : Record} {rest : List Record} (hport : s.port = none)
    (hl : legalStack (r :: rest) = true) (h : routineStep r rest s = .next t) (ht : t.Armed) : r.Armed := by
  have hm := routineStep_moves s rest (legalStack_inRange hl)
  rw [h] at hm
  obtain ⟨h1, h2⟩ := (Record.inRange_iff r).1 (legalStack_inRange hl)
  obtain ⟨rt, k⟩ := r
  by_cases hb : rt.bracketing = true
  · rcases Routine.eq_of_bracketing hb with rfl | rfl | rfl | rfl | rfl
    · exact pageProgramStep_arms hport h1 h2 hl h ht
    · refine sectorErase_routine.arms hport (.inl rfl) (fun t h => ?_) (fun t h => ?_) h1 h2 h ht <;> cases h
      · exact State.not_armed_check hport _ _ _ _
      · exact State.not_armed_ret hport hl nofun
    · refine blockErase_routine.arms hport (.inl rfl) (fun t h => ?_) (fun t h => ?_) h1 h2 h ht <;> cases h
      · exact State.not_armed_check hport _ _ _ _
      · exact State.not_armed_ret hport hl nofun
    · refine eraseAll_routine.arms hport (.inl rfl) (fun t h => ?_) (fun t h => ?_) h1 h2 h ht <;> cases h
      · exact State.not_armed_check hport _ _ _ _
      · exact State.not_armed_of_idle (t := s.finish []) rfl hport
    · exact gateStep_arms h1 h2 h ht
  · exact absurd ht (hm.not_armed hl hport (Bool.eq_false_iff.2 hb))

/-- A move of a routine adds no event and leaves a record on top, or it ends the operation with a `Done` (R38f). -/
theorem Moves.goes_on_or_ends {s t : State} {r : Record} {rest : List Record} (hl : legalStack (r :: rest) = true)
    (hport : s.port = none) (hm : Moves s r rest (.next t)) : (t.ph ≠ [] ∧ t.trace = s.trace) ∨
      (t.Idle ∧ ∃ ok c n rdata, t.trace = s.trace ++ [.done ok c n rdata]) := by
  cases hm with
  | goOn u k hu _ _ => exact .inl ⟨nofun, hu.trace⟩
  | call callee k _ _ => exact .inl ⟨nofun, rfl⟩
  | ret u hu hn =>
    obtain ⟨c, below, rfl, _⟩ := legalStack_ret hl hn
    exact .inl ⟨nofun, hu.trace⟩
  | request u k req hu _ _ _ => exact .inl ⟨nofun, hu.trace⟩
  | delay ms k _ _ => exact .inl ⟨nofun, rfl⟩
  | finish u rdata hu => exact .inr ⟨⟨rfl, hu.port.trans hport⟩, _, _, _, _, congrArg (· ++ [_]) hu.trace⟩
  | raise u c hu => exact .inr ⟨⟨rfl, rfl⟩, _, _, _, _, congrArg (· ++ [_]) hu.trace⟩

/-- A step of a routine keeps the bracket: it arms the block at an armed record only, where the last frame is the
write-enable, and then adds no event. -/
theorem routineStep_bracketOk {s t : State} {r : Record} {rest : List Record} (hphase : s.PhaseOk) (hs : s.BracketOk)
    (hport : s.port = none) (hph : s.ph = r :: rest) (h : routineStep r rest s = .next t) : t.BracketOk := by
  obtain ⟨htr, harmed⟩ := s.bracketOk_iff.1 hs
  have hl : legalStack (r :: rest) = true := hph ▸ hphase.1
  have hm := routineStep_moves s rest (legalStack_inRange hl)
  rw [h] at hm
  rw [State.bracketOk_iff]
  have hlast : t.Armed → lastSent s.trace = some (frameOf .wren) := fun ht =>
    harmed (.inr ⟨r, rest, hph, (routineStep_arms hport hl h ht).imp_right (⟨·, hport⟩)⟩)
  rcases hm.goes_on_or_ends hl hport with ⟨_, htrace⟩ | ⟨⟨hidle, hfree⟩, _, _, _, _, htrace⟩ <;> rw [htrace]
  · exact ⟨htr, hlast⟩
  · exact ⟨htr.snoc_other nofun, fun ht => absurd ht (State.not_armed_of_idle hidle hfree)⟩

/-! ### The host's moves, and the whole step -/

/-- The host's moves send no frame, and a routine that they start is at its first step. -/
theorem hostStep_bracketOk {s t : State} (hs : s.BracketOk) (hidle : s.Idle) (h : hostStep s = .next t) : t.BracketOk := by
  obtain ⟨hph, hport⟩ := hidle
  have htr := (s.bracketOk_iff.1 hs).1
  rcases hostStep_cases s t h with ⟨_, rfl⟩ | ⟨w, d, more, _, ha⟩ | ⟨v, more, _, rfl⟩ | ⟨i, more, _, rfl⟩
  · exact hs
  · obtain ⟨_, _, _, ⟨_, _, rfl⟩ | ⟨_, rfl⟩⟩ := State.accept_cases _ _ _ _ _ _ ha <;>
      exact (State.bracketOk_iff _).2 ⟨htr.snoc_other nofun, fun ht => absurd ht (State.not_armed_at hport (by decide))⟩
  · exact (State.bracketOk_iff _).2 ⟨htr.snoc_other nofun, fun ht => absurd ht (State.not_armed_of_idle hph hport)⟩
  · exact (State.bracketOk_iff _).2 ⟨htr, fun ht => absurd ht (State.not_armed_of_idle hph hport)⟩

theorem advance_bracketOk {s t : State} (hphase : s.PhaseOk) (hs : s.BracketOk) (h : advance s = .next t) :
    t.BracketOk := by
  rcases advance_cases h with ⟨q, hport, hq⟩ | ⟨r, rest, hport, hph, hr⟩ | ⟨hidle, hh⟩
  · exact portStep_bracketOk hphase hs hport hq
  · exact routineStep_bracketOk hphase hs hport hph hr
  · exact hostStep_bracketOk hs hidle hh

/-- Settles O15: `Reset` leaves nothing to send, and every advance keeps the bracket (`advance_bracketOk`). -/
theorem mutatingFramesStayBracketed : Obligations.MutatingFramesStayBracketed := by
  intro s t hphase hs h
  rcases step_cases s t h with ⟨later, _, rfl⟩ | ⟨later, _, ha⟩
  · exact (State.bracketOk_iff _).2 ⟨((s.bracketOk_iff.1 hs).1).snoc_other nofun,
      fun ht => absurd ht (State.not_armed_of_idle rfl rfl)⟩
  · exact advance_bracketOk (s := { s with resets := later }) hphase hs ha

end Sys2Proof.Machine
end

section
/-! The host operations that poll or gate once, on any chip (R164, R166, R168 to R171). -/

namespace Sys2Proof.Machine

/-- Port uses without a program or erase frame change no byte of flash memory (R291). -/
theorem Chip.read_played (c : Chip) {l : List PortReq} (h : ∀ f ∈ sentBy l, mutatingFrame f = false) (x : Nat) :
    (c.played l).read x = c.read x := by
  induction l generalizing c with
  | nil => rfl
  | cons q l ih =>
    cases q with
    | delay ms => exact ih c h
    | xfer req =>
      obtain ⟨hreq, hl⟩ := List.forall_mem_cons.1 h
      exact (ih (c.after req) hl).trans (c.read_after hreq x)

theorem Chip.read_played_statusBus (c : Chip) (p : Params) (x : Nat) : (c.played (statusBus p)).read x = c.read x :=
  c.read_played (by simp [statusBus, mutatingFrame, opcPp, opcSe, opcBe64, opcCe]) x

/-- Settles O41: one `read_status` (`readStatus_leads`), called by the host operation. -/
theorem readStatusReturnsBothRegisters : Obligations.ReadStatusReturnsBothRegisters := by
  intro s a l d hs hx
  have ⟨hph, hclear⟩ := hs
  refine ⟨_, exec_accepted (op := .readStatus) hs hx rfl, ?_⟩
  have hread : Leads ((s.latch .readStatus a l d).at (.host .readStatus) 1 [])
      ((s.latch .readStatus a l d).statusRead.at (.host .readStatus) 2 []) :=
    .trans (.routine hclear rfl rfl) (readStatus_leads hclear rfl)
  refine (hread.trans (.routine hclear rfl rfl)).reaches ⟨_, _, rfl, rfl, ?_, s.chip.read_played_statusBus s.params⟩
  simp [State.finish, State.at, State.statusRead, State.played, State.latch, respByte, packResult, Cause.code, HostOp.code,
    hph, hclear.1]

/-- A host operation that is one gate makes the three events of R168 and ends. -/
theorem gateOp_leads {op : HostOp} {g : Gate} (hop : ∀ k s, routineStep ⟨.host op, k⟩ [] s = gateOpStep op g k [] s)
    {s : State} {a l : Word} {d : Bytes} (hs : s.Clear) : Leads ((s.latch op a l d).at (.host op) 1 [])
      (((s.latch op a l d).played (gateBus s.params g.opcode)).finish []) := by
  have hgate : Leads ((s.latch op a l d).at (.host op) 1 [])
      (((s.latch op a l d).played (gateBus s.params g.opcode)).at (.host op) 2 []) :=
    call_gate_leads hs rfl (hop 1 _)
  exact hgate.trans (.routine hs rfl (hop 2 _))

/-- The `Done` of a host operation that is one gate: the whole state, and no byte of flash memory changed. -/
theorem gateOp_reaches {op : HostOp} {g : Gate} (hop : ∀ k s, routineStep ⟨.host op, k⟩ [] s = gateOpStep op g k [] s)
    (hd : op.takesData = false) {s : State} {a l : Word} {d : Bytes} (hs : s.Quiet) (hx : s.Accepts op) :
    ∃ t, exec (op.instr a l d) s = .next t ∧ Reaches t (fun u =>
      u = { s with addr := a, len := l, cnt := 0#32, wbuf := d, rbuf := [], opr := u.opr, free := u.free,
                   result := 0x1#4, count := 0#32, chip := s.chip.after [g.opcode],
                   trace := s.trace ++ [.cmd op.code a l d] ++ playBus s.chip s.free (gateBus s.params g.opcode)
                     ++ [.done true .none 0#32 []] } ∧
      ∀ x, u.flashByte x = s.flashByte x) := by
  have ⟨hph, hclear⟩ := hs
  refine ⟨_, exec_accepted hs hx (by simp [wfCmdData, hd]), (gateOp_leads hop hclear).reaches ⟨?_, fun x => ?_⟩⟩
  · simp [State.finish, State.played, State.latch, packResult, Cause.code, gateBus, Chip.played, hph, hclear.1]
  · exact s.chip.read_after (req := [g.opcode]) (by cases g <;> rfl) x

/-- Settles O42: the three gates, one lemma (`gateOp_reaches`). -/
theorem gateOperationsSendTheirOpcode : Obligations.GateOperationsSendTheirOpcode := by
  intro s op opc a l d hs hx hop
  simp only [List.mem_cons, Prod.mk.injEq, List.not_mem_nil, or_false] at hop
  rcases hop with ⟨rfl, rfl⟩ | ⟨rfl, rfl⟩ | ⟨rfl, rfl⟩
  · exact gateOp_reaches (g := .writeEnable) (fun _ _ => rfl) rfl hs hx
  · exact gateOp_reaches (g := .writeDisable) (fun _ _ => rfl) rfl hs hx
  · exact gateOp_reaches (g := .volatileStatusWriteEnable) (fun _ _ => rfl) rfl hs hx

/-- A wait whose first poll finds the chip ready is that poll (R165). -/
theorem wait_ready {s : State} {rest : List Record} (hs : s.Clear) (hph : s.ph = ⟨.waitUntilReady, 1⟩ :: rest)
    (hb : busy s.statusRead.sr1 = false) : Leads s (State.ret (State.polled { s with att := 0#32 }) rest) := by
  have hstart : Leads s (State.at { s with att := 0#32 } .waitUntilReady 2 rest) := .routine hs hph rfl
  exact hstart.trans (poll_ready hs rfl hb)

/-- Settles O49: the wait is one poll (`wait_ready`). -/
theorem waitReturnsAtOnceOnAReadyChip : Obligations.WaitReturnsAtOnceOnAReadyChip := by
  rintro s a l d r1 r2 hs hx rfl hready rfl
  have ⟨hph, hclear⟩ := hs
  refine ⟨_, exec_accepted (op := .waitUntilReady) hs hx rfl, ?_⟩
  have hwait : Leads ((s.latch .waitUntilReady a l d).at (.host .waitUntilReady) 1 [])
      (State.at (State.polled { s.latch .waitUntilReady a l d with att := 0#32 }) (.host .waitUntilReady) 2 []) :=
    .trans (.routine hclear rfl rfl) (wait_ready hclear rfl hready)
  refine (hwait.trans (.routine hclear rfl rfl)).reaches ⟨?_, s.chip.read_played_statusBus s.params⟩
  simp [State.finish, State.at, State.polled, State.statusRead, State.played, State.latch, respByte, nextAttempt, packResult,
    Cause.code, HostOp.code, hph, hclear.1]

end Sys2Proof.Machine
end

section
/-! Time-outs (R165, R167, R247): a wait whose busy answers reach `POLL_LIMIT`, in each routine that waits. -/

namespace Sys2Proof.Machine

/-- A busy D0 shows the latch and bit 0. -/
theorem Device.status_of_busy (d : Device) (h : d.bsy ≠ 0) : d.status = latchByte d.wel ||| 0x01#8 := by
  simp [Device.status, latchByte, h]

/-- The state after polls that all found `d` busy and reached the limit, the last one without a poll delay. -/
def State.exhausted (s : State) (d : Device) (n : Nat) : State :=
  { s.played (waitBus s.params n) with att := s.pollLimit, sr1 := latchByte d.wel ||| 0x01#8, sr2 := 0x00#8 }

/-- At the limit a busy poll ends the whole operation (R165 S4). -/
theorem poll_times_out {s : State} {rest : List Record} (hs : s.Clear) (hph : s.ph = ⟨.waitUntilReady, 4⟩ :: rest)
    (hl : attemptsSpent s.pollLimit s.att = true) : Leads s (s.raise .timeout) := by
  refine .routine hs hph ?_
  simp only [routineStep, waitStep, hl, if_true]

theorem attemptsSpent_self {limit : Word} (h : 1 ≤ limit.toNat) : attemptsSpent limit limit = true := by
  have hne : limit ≠ 0#32 := by
    rintro rfl
    exact absurd h (by decide)
  simp [attemptsSpent, hne]

/-- As many busy polls as the limit leaves, and the time-out. -/
theorem polls_time_out {s : State} {rest : List Record} {d : Device} {n : Nat} (hs : s.Clear)
    (hph : s.ph = ⟨.waitUntilReady, 2⟩ :: rest) (hc : s.chip = .d0 d) (hl : s.att.toNat + (n + 1) = s.pollLimit.toNat)
    (hb : n + 1 ≤ d.bsy) : Leads s ((s.exhausted d n).raise .timeout) := by
  induction n generalizing s d with
  | zero =>
    have hbusy : busy s.statusRead.sr1 = true := by
      rw [State.statusRead_d0 hc]
      simpa using d.status_busy.trans (decide_eq_true (by omega))
    have hatt : nextAttempt s.att = s.pollLimit := by
      have := s.pollLimit.isLt
      refine BitVec.eq_of_toNat_eq ((attemptsAfter_toNat s.att 1).trans ?_)
      omega
    have hspent : attemptsSpent s.pollLimit (nextAttempt s.att) = true := by
      rw [hatt]
      exact attemptsSpent_self (by omega)
    refine (poll_busy hs hph hbusy).trans (.congr (poll_times_out hs rfl hspent) ?_)
    simp only [State.exhausted, State.polled, State.statusRead_d0 hc, hatt, d.status_of_busy (by omega)]
    rfl
  | succ n ih =>
    have hchip : (s.pollRound d).chip = .d0 { d with bsy := d.bsy - 1 } := by
      simp [State.pollRound, State.played, Chip.played_append, hc, Chip.played_statusBus, Chip.played]
    have hatt : (s.pollRound d).att.toNat = s.att.toNat + 1 := by
      have := s.pollLimit.isLt
      simp only [State.pollRound, attemptsAfter_toNat]
      omega
    have hround := poll_round hs hph hc (by omega) (.inr (by omega))
    refine hround.trans (.congr (ih (d := { d with bsy := d.bsy - 1 }) hs rfl hchip ?_ (by simp; omega)) ?_)
    · simp only [State.at_att, hatt, State.at_pollLimit]
      exact (by omega : s.att.toNat + 1 + (n + 1) = s.pollLimit.toNat)
    · simp [State.exhausted, State.pollRound, State.played, State.raise, State.at, waitBus_succ, playBus_append,
        Chip.played_append, playBus, Chip.played, Nat.add_assoc]

/-- The end of an operation whose wait has found `d` busy up to the limit. -/
def State.timedOut (s : State) (d : Device) : State := (s.exhausted d (s.pollLimit.toNat - 1)).raise .timeout

/-- A wait on a device whose busy answers reach the limit ends the operation, whatever called it (R165, R167). -/
theorem wait_times_out {s : State} {rest : List Record} {d : Device} (hs : s.Clear)
    (hph : s.ph = ⟨.waitUntilReady, 1⟩ :: rest) (hc : s.chip = .d0 d) (h1 : 1 ≤ s.pollLimit.toNat)
    (hb : s.pollLimit.toNat ≤ d.bsy) : Leads s (s.timedOut d) := by
  have hstart : Leads s (State.at { s with att := 0#32 } .waitUntilReady 2 rest) := .routine hs hph rfl
  refine hstart.trans (polls_time_out (n := s.pollLimit.toNat - 1) hs rfl hc ?_ (by omega))
  simp only [State.at_att, State.at_pollLimit, BitVec.toNat_ofNat]
  omega

/-- A call of such a wait, from the step that makes it. -/
theorem call_wait_times_out {s : State} {r : Record} {below rest : List Record} {rt : Routine} {k : Nat} {d : Device}
    (hs : s.Clear) (hph : s.ph = r :: below) (h : routineStep r below s = .next (s.call .waitUntilReady rt k rest))
    (hc : s.chip = .d0 d) (h1 : 1 ≤ s.pollLimit.toNat) (hb : s.pollLimit.toNat ≤ d.bsy) : Leads s (s.timedOut d) :=
  .trans (.routine hs hph h) (wait_times_out hs rfl hc h1 hb)

theorem State.timedOut_chip {s : State} {d : Device} (hc : s.chip = .d0 d) (h1 : 1 ≤ s.pollLimit.toNat) :
    (s.timedOut d).chip = .d0 { d with bsy := d.bsy - s.pollLimit.toNat } := by
  have hplayed : (s.timedOut d).chip = s.chip.played (waitBus s.params (s.pollLimit.toNat - 1)) := rfl
  rw [hplayed, hc, waitBus, Chip.played_append, Chip.played_pollBus, Chip.played_statusBus]
  simp only [Nat.sub_sub, Nat.sub_add_cancel h1]

/-- What a time-out after the port uses `l` reports and leaves in the trace (R247). -/
theorem State.played_timedOut (s : State) (l : List PortReq) (d : Device) : ((s.played l).timedOut d).Idle ∧
    ((s.played l).timedOut d).result = 0x8#4 ∧ ((s.played l).timedOut d).count = s.cnt ∧
    ((s.played l).timedOut d).trace = s.trace ++ playBus s.chip s.free (l ++ timeoutBus s.params s.pollLimit) ++
      [.done false .timeout s.cnt []] := by
  refine ⟨⟨rfl, rfl⟩, rfl, rfl, ?_⟩
  rw [playBus_append, ← List.append_assoc]
  rfl

/-- The whole state after a time-out. -/
theorem State.timedOut_eq {s : State} {d : Device} (hport : s.port = none) (hc : s.chip = .d0 d)
    (h1 : 1 ≤ s.pollLimit.toNat) : s.timedOut d =
      { s with ph := [], att := s.pollLimit, sr1 := latchByte d.wel ||| 0x01#8, sr2 := 0x00#8,
               opr := (s.timedOut d).opr, free := (s.timedOut d).free, result := 0x8#4, count := s.cnt,
               chip := .d0 { d with bsy := d.bsy - s.pollLimit.toNat },
               trace := s.trace ++ playBus s.chip s.free (timeoutBus s.params s.pollLimit) ++
                 [.done false .timeout s.cnt []] } := by
  rw [← State.timedOut_chip hc h1]
  simp [State.timedOut, State.exhausted, State.played, State.raise, packResult, Cause.code, timeoutBus, waitBus, hport]

/-! ### `page_program` and `write` -/

/-- `page_program` times out in its wait, nothing but status reads sent (R191 S1). -/
theorem pageProgram_times_out {s : State} {rest : List Record} {d : Device} (hs : s.Clear)
    (hph : s.ph = ⟨.pageProgram, 1⟩ :: rest) (hc : s.chip = .d0 d) (h1 : 1 ≤ s.pollLimit.toNat)
    (hb : s.pollLimit.toNat ≤ d.bsy) : Leads s (s.timedOut d) :=
  call_wait_times_out hs hph rfl hc h1 hb

/-- The loop of `write` times out in the wait of the call that it is about to make (R201, R204). -/
theorem write_call_times_out {s : State} {rest : List Record} {d : Device} (hs : s.Clear)
    (hph : s.ph = ⟨.host .write, 3⟩ :: rest) (hoff : s.off.toNat < s.len.toNat) (hc : s.chip = .d0 d)
    (h1 : 1 ≤ s.pollLimit.toNat) (hb : s.pollLimit.toNat ≤ d.bsy) :
    Leads s (State.timedOut { s with n := offered s.len s.off } d) := by
  have htest : Leads s (s.at (.host .write) 4 rest) := by
    refine .routine hs hph ?_
    simp only [routineStep, writeStep, if_neg (show ¬ s.len.toNat ≤ s.off.toNat by omega)]
  have hoffer : Leads s (State.at { s with n := offered s.len s.off } (.host .write) 5 rest) :=
    htest.trans (.routine hs rfl rfl)
  have hcall : Leads s (State.at { s with n := offered s.len s.off } .pageProgram 1 (⟨.host .write, 6⟩ :: rest)) :=
    hoffer.trans (.routine hs rfl rfl)
  exact hcall.trans (pageProgram_times_out hs rfl hc h1 hb)

/-- The port uses of a call of `page_program` by the loop of `write`. -/
def State.writeBus (s : State) (d : Device) : List PortReq :=
  waitBus s.params d.bsy ++ burstBus s.params (wireAddr s.cur) (payload s.wbuf s.off s.chunk)

/-- A time-out right after a call of the loop. -/
theorem State.writeCall_timedOut_trace (s : State) (d d' : Device) :
    (State.timedOut { s.writeCall d with n := offered (s.writeCall d).len (s.writeCall d).off } d').trace =
      s.trace ++ playBus s.chip s.free (s.writeBus d ++ timeoutBus s.params s.pollLimit) ++
        [.done false .timeout (s.off + s.chunk) []] := by
  have hchip : (s.writeCall d).chip = s.chip.played (s.writeBus d) := congrArg State.chip
    (s.played_played (waitBus s.params d.bsy) (burstBus s.params (wireAddr s.cur) (payload s.wbuf s.off s.chunk)))
  have hfree : (s.writeCall d).free = s.free + xfersOf (s.writeBus d) := congrArg State.free
    (s.played_played (waitBus s.params d.bsy) (burstBus s.params (wireAddr s.cur) (payload s.wbuf s.off s.chunk)))
  have hbus : (State.timedOut { s.writeCall d with n := offered (s.writeCall d).len (s.writeCall d).off } d').trace =
      (s.writeCall d).trace ++ playBus (s.writeCall d).chip (s.writeCall d).free (timeoutBus s.params s.pollLimit) ++
        [.done false .timeout (s.off + s.chunk) []] := rfl
  rw [hbus, hchip, hfree, State.writeCall_trace, playBus_append _ _ (s.writeBus d), ← List.append_assoc]
  rfl

theorem pageProgramOp_times_out {s : State} {a l : Word} {w : Bytes} {d : Device} (hs : s.Clear) (hc : s.chip = .d0 d)
    (h1 : 1 ≤ s.pollLimit.toNat) (hb : s.pollLimit.toNat ≤ d.bsy) :
    Leads ((s.latch .pageProgram a l w).at (.host .pageProgram) 1 [])
      ((s.latch .pageProgram a l w).prepared.timedOut d) := by
  have hcall : Leads ((s.latch .pageProgram a l w).at (.host .pageProgram) 1 [])
      ((s.latch .pageProgram a l w).prepared.at .pageProgram 1 [⟨.host .pageProgram, 3⟩]) :=
    .trans (.routine hs rfl rfl) (.routine hs rfl rfl)
  exact hcall.trans (pageProgram_times_out hs rfl hc h1 hb)

/-- The first call of `write` (R202): the chunk and its frame. -/
theorem State.writeStart_chunk {s : State} {a l : Word} {d : Bytes} (hd : d.length = l.toNat)
    (hlt : 256 - a.toNat % 256 < l.toNat) : (s.writeStart a l d).chunk = BitVec.ofNat 32 (256 - a.toNat % 256) ∧
      (payload d 0#32 (s.writeStart a l d).chunk).length = 256 - a.toNat % 256 ∧
      frameOf (.pp (wireAddr a) (payload d 0#32 (s.writeStart a l d).chunk)) = chunkFrame a d 0 := by
  have hoff : (s.writeStart a l d).off.toNat = chunkStart a 0 := (chunkStart_zero a).symm
  have hcur : (s.writeStart a l d).cur = a + (s.writeStart a l d).off := (BitVec.add_zero a).symm
  obtain ⟨hchunk, _, _⟩ := State.chunk_toNat (s := s.writeStart a l d) hoff
    (show chunkStart a 0 < l.toNat by rw [chunkStart_zero]; omega) hcur
  have hmin : (s.writeStart a l d).chunk.toNat = 256 - a.toNat % 256 := by
    refine hchunk.trans ?_
    rw [hoff, show (s.writeStart a l d).addr = a from rfl, show (s.writeStart a l d).len = l from rfl, chunkStart_succ,
      chunkStart_zero]
    omega
  refine ⟨BitVec.eq_of_toNat_eq (hmin.trans ?_), ?_, State.chunkFrame_eq (s := s.writeStart a l d) hoff hcur hd hchunk⟩
  · rw [BitVec.toNat_ofNat]
    omega
  · rw [payload, hmin, List.length_take, List.length_drop, hd]
    exact Nat.min_eq_left hlt.le

/-- The port uses of the first call, as R191 and R202 write them. -/
theorem State.writeStart_bus {s : State} {a l : Word} {d : Bytes} (dev : Device) (hd : d.length = l.toNat)
    (hlt : 256 - a.toNat % 256 < l.toNat) :
    (s.writeStart a l d).writeBus dev = pollBus s.params dev.bsy ++ programBus s.params (chunkFrame a d 0) := by
  obtain ⟨_, _, hframe⟩ := State.writeStart_chunk (s := s) hd hlt
  have hwhole : (s.writeStart a l d).writeBus dev = waitBus s.params dev.bsy ++
      burstBus s.params (wireAddr a) (payload d 0#32 (s.writeStart a l d).chunk) := rfl
  simp [hwhole, waitBus, burstBus, programBus, hframe, opcWren, opcWrdi]

/-- The second call of `write` times out where the first one has left the device busy up to the limit (R204). -/
theorem write_second_call_times_out {s : State} {a l : Word} {d : Bytes} {dev : Device} (hs : s.Clear)
    (hd : d.length = l.toNat) (hc : s.chip = .d0 dev) (hb : dev.bsy < s.pollLimit.toNat) (hk : s.pollLimit.toNat ≤ dev.k)
    (hlt : 256 - a.toNat % 256 < l.toNat) :
    ∃ dev', Leads (s.writeStart a l d) (State.timedOut { (s.writeStart a l d).writeCall dev with
      n := offered l ((s.writeStart a l d).writeCall dev).off } dev') := by
  obtain ⟨hchunk, hlen, _⟩ := State.writeStart_chunk (s := s) hd hlt
  have hfirst := write_call (s := s.writeStart a l d) hs rfl (show 0 < l.toNat by omega) hc (.inr hb)
  have hoff : ((s.writeStart a l d).writeCall dev).off.toNat < l.toNat := by
    have hsum : ((s.writeStart a l d).writeCall dev).off = BitVec.ofNat 32 (256 - a.toNat % 256) :=
      (BitVec.zero_add _).trans hchunk
    rw [hsum, BitVec.toNat_ofNat]
    omega
  have hchip : ((s.writeStart a l d).writeCall dev).chip =
      .d0 (dev.programmed (wireAddr a) (payload d 0#32 (s.writeStart a l d).chunk)) :=
    State.writeCall_chip (s := s.writeStart a l d) hc
  have hbusy : (dev.programmed (wireAddr a) (payload d 0#32 (s.writeStart a l d).chunk)).bsy = dev.k := by
    refine if_neg (fun hnil => ?_)
    rw [hnil, List.length_nil] at hlen
    omega
  exact ⟨_, hfirst.trans (write_call_times_out (s := (s.writeStart a l d).writeCall dev) hs rfl hoff hchip
    (show 1 ≤ s.pollLimit.toNat by omega) (hbusy ▸ hk))⟩

/-- Settles O53: the time-out of `wait_times_out`, in each of the routines that wait. -/
theorem waitTimesOutAtTheLimit : Obligations.WaitTimesOutAtTheLimit := by
  refine ⟨?wait, ?routine, ?first, ?second⟩
  case wait =>
    intro s a l d dev hs hx hc h1 hb
    have ⟨hph, hclear⟩ := hs
    refine ⟨_, exec_accepted (op := .waitUntilReady) hs hx rfl, ?_⟩
    have hrun : Leads ((s.latch .waitUntilReady a l d).at (.host .waitUntilReady) 1 [])
        ((s.latch .waitUntilReady a l d).timedOut dev) := call_wait_times_out hclear rfl rfl hc h1 hb
    refine hrun.reaches ((State.timedOut_eq (s := s.latch .waitUntilReady a l d) hclear.1 hc h1).trans ?_)
    simp [State.latch, HostOp.code, hph]
  case routine =>
    intro s rest dev hresets hport hph hc h1 hb
    exact (wait_times_out ⟨hport, hresets⟩ hph hc h1 hb).reaches (State.timedOut_eq hport hc h1)
  case first =>
    rintro s op a l d dev hs hx hd hop hc h1 hb
    have hclear : s.Clear := hs.2
    refine ⟨_, exec_accepted hs hx (by simp [wfCmdData, hd]), ?_⟩
    rcases hop with rfl | ⟨rfl, hrange⟩
    · refine (pageProgramOp_times_out hclear hc h1 hb).reaches ⟨⟨rfl, rfl⟩, rfl, rfl, ?_, rfl⟩
      exact State.timedOut_chip (s := (s.latch .pageProgram a l d).prepared) hc h1
    · have hpos : (0#32 : Word).toNat < l.toNat := (rangeOk_bounds hrange).1
      have hrun := (write_starts (d := d) hclear hrange).trans (write_call_times_out hclear rfl hpos hc h1 hb)
      refine hrun.reaches ⟨⟨rfl, rfl⟩, rfl, rfl, ?_, rfl⟩
      exact State.timedOut_chip (s := { s.writeStart a l d with n := _ }) hc h1
  case second =>
    rintro s a l d dev c hs hd hrange hc hb hk rfl hlt
    have hclear : s.Clear := hs.2
    refine ⟨_, exec_accepted (op := .write) hs (.inl rfl) (by simp [wfCmdData, hd]), ?_⟩
    obtain ⟨dev', hsecond⟩ := write_second_call_times_out hclear hd hc hb hk hlt
    have hcnt : (s.writeStart a l d).off + (s.writeStart a l d).chunk = BitVec.ofNat 32 (256 - a.toNat % 256) :=
      (BitVec.zero_add _).trans (State.writeStart_chunk (s := s) hd hlt).1
    refine ((write_starts hclear hrange).trans hsecond).reaches ⟨⟨rfl, rfl⟩, rfl, hcnt, ?_⟩
    refine (State.writeCall_timedOut_trace (s.writeStart a l d) dev dev').trans ?_
    rw [State.writeStart_bus dev hd hlt, hcnt]
    rfl

end Sys2Proof.Machine
end

section
/-! Time-outs inside the erases (R167, R229, R244, R299): the write-enable and the erase frame are sent, the write-disable
is not. -/

namespace Sys2Proof.Machine

/-- The steps 1 to 3 of an erase: its check, the write-enable and its frame (R216, R219, R229). -/
theorem EraseRoutine.opens {rt : Routine} {ok : State → Prop} {frame : Word → Bytes} (hr : EraseRoutine rt ok frame)
    {s : State} {rest : List Record} (hs : s.Clear) (hph : s.ph = ⟨rt, 1⟩ :: rest) (hok : ok s) :
    Leads s ((s.played (eraseOpening s.params (frame s.cur))).at rt 4 rest) := by
  obtain ⟨i, hdec, hexec⟩ := hr.performed s.cur
  have henabled : Leads s ((s.played (gateBus s.params opcWren)).at rt 3 rest) :=
    .trans (.routine hs hph (hr.check s rest hok)) (call_gate_leads (g := .writeEnable) hs rfl (hr.enable _ _))
  refine henabled.trans (.send hs rfl (hr.send _ _) hs hdec ?_)
  rw [hexec, eraseOpening, ← s.played_played]
  rfl

/-- The state after an erase with the frame `f` that has timed out in its wait for `d`. -/
def State.eraseTimedOut (s : State) (d : Device) (f : Bytes) : State :=
  (s.played (eraseOpening s.params f)).timedOut d

/-- An erase on a ready D0 whose busy answers reach the limit times out, its frame sent. -/
theorem EraseRoutine.times_out {rt : Routine} {ok : State → Prop} {frame : Word → Bytes} (hr : EraseRoutine rt ok frame)
    {s : State} {rest : List Record} {d : Device} {m : Memory} (hs : s.Clear) (hph : s.ph = ⟨rt, 1⟩ :: rest) (hok : ok s)
    (hc : s.chip = .d0 d) (hb : d.bsy = 0) (h1 : 1 ≤ s.pollLimit.toNat) (hk : s.pollLimit.toNat ≤ d.k)
    (hf : d.ErasesTo (frame s.cur) m) : Leads s (s.eraseTimedOut (d.mutated m) (frame s.cur)) := by
  have hchip : (s.played (eraseOpening s.params (frame s.cur))).chip = .d0 (d.mutated m) := by
    rw [State.played_chip, hc, Chip.played_eraseOpening s.params hb hf]
  exact (hr.opens hs hph hok).trans (call_wait_times_out hs rfl (hr.wait _ _) hchip h1 hk)

/-- The same, called by the host operation of a single erase (R217, R220). -/
theorem EraseOp.times_out {op : HostOp} {rt : Routine} {ok : State → Prop} {frame : Word → Bytes} (hop : EraseOp op rt)
    (hr : EraseRoutine rt ok frame) {s : State} {a l : Word} {w : Bytes} {d : Device} {m : Memory} (hs : s.Clear)
    (hok : ∀ ph, ok { s.latch op a l w with cur := a, ph := ph }) (hc : s.chip = .d0 d) (hb : d.bsy = 0)
    (h1 : 1 ≤ s.pollLimit.toNat) (hk : s.pollLimit.toNat ≤ d.k) (hf : d.ErasesTo (frame a) m) :
    Leads ((s.latch op a l w).at (.host op) 1 [])
      (State.eraseTimedOut { s.latch op a l w with cur := a } (d.mutated m) (frame a)) := by
  have hcalled : Leads ((s.latch op a l w).at (.host op) 1 [])
      (State.at { s.latch op a l w with cur := a } rt 1 [⟨.host op, 3⟩]) :=
    .trans (.routine hs rfl (hop.start _)) (.routine hs rfl (hop.call _))
  exact hcalled.trans (hr.times_out hs rfl (hok _) hc hb h1 hk hf)

/-- The loop of `erase` times out in the sector that it is at (R227). -/
theorem erase_call_times_out {s : State} {rest : List Record} {d : Device} (hs : s.Clear)
    (hph : s.ph = ⟨.host .erase, 3⟩ :: rest) (hlt : s.cur.toNat < s.len.toNat)
    (hok : sectorIndex s.cur < capacitySectors s.size) (hc : s.chip = .d0 d) (hb : d.bsy = 0)
    (h1 : 1 ≤ s.pollLimit.toNat) (hk : s.pollLimit.toNat ≤ d.k) :
    Leads s (s.eraseTimedOut (d.mutated (d.sectorErased s.cur)) (frameOf (.se (sectorAddr s.cur)))) := by
  have hcalled : Leads s (s.at .sectorErase 1 (⟨.host .erase, 5⟩ :: rest)) :=
    (erase_tests hs hph hlt).trans (.routine hs rfl rfl)
  exact hcalled.trans (sectorErase_routine.times_out hs rfl hok hc hb h1 hk (d.erasesTo_se s.cur hb))

/-- What such a time-out reports and leaves in the trace. -/
theorem State.eraseTimedOut_reports (s : State) (d : Device) (f : Bytes) : (s.eraseTimedOut d f).Idle ∧
    (s.eraseTimedOut d f).result = 0x8#4 ∧ (s.eraseTimedOut d f).count = s.cnt ∧
    (s.eraseTimedOut d f).trace = s.trace ++
      playBus s.chip s.free (gateBus s.params 0x06#8 ++ [.xfer f] ++ timeoutBus s.params s.pollLimit) ++
      [.done false .timeout s.cnt []] := s.played_timedOut _ d

/-- The frame of a sector erase, its address masked once (R121). -/
theorem frameOf_se_sectorAddr (a : Word) :
    frameOf (.se (sectorAddr a)) = [0x20#8] ++ addrBytes (a.setWidth 24 &&& 0xFFF000#24) :=
  congrArg (fun x => opcSe :: addrBytes x) (sectorMask_idem (wireAddr a))

/-- The frame of a block erase, its address masked once (R123). -/
theorem frameOf_be64_blockAddr (a : Word) :
    frameOf (.be64 (blockAddr a)) = [0xD8#8] ++ addrBytes (a.setWidth 24 &&& 0xFF0000#24) :=
  congrArg (fun x => opcBe64 :: addrBytes x) (block64Mask_idem (wireAddr a))

/-- Settles O54: each erase opens its bracket and times out in its wait (`EraseRoutine.times_out`). -/
theorem timeoutLeavesTheEraseUnclosed : Obligations.TimeoutLeavesTheEraseUnclosed := by
  refine ⟨?accepted, ?sector⟩
  case accepted =>
    intro s op a l w d f hs hx hc hb hrange hop h1 hk
    have hclear : s.Clear := hs.2
    rcases hop with ⟨rfl, rfl⟩ | ⟨rfl, rfl⟩ | ⟨rfl, rfl⟩ | ⟨rfl, h16, rfl⟩ <;>
      refine ⟨_, exec_accepted hs hx rfl, ?_⟩
    · have hok : sectorIndex a < capacitySectors s.size := by
        simpa [rangeFails, sectorIndex, capacitySectors, sectorBytes] using hrange
      rw [← frameOf_se_sectorAddr]
      exact (sectorErase_op.times_out sectorErase_routine hclear (fun _ => hok) hc hb h1 hk (d.erasesTo_se a hb)).reaches
        (State.eraseTimedOut_reports _ _ _)
    · have hok : blockIndex a < capacityBlocks s.size := by
        simpa [rangeFails, blockIndex, capacityBlocks, blockBytes] using hrange
      rw [← frameOf_be64_blockAddr]
      exact (blockErase_op.times_out blockErase_routine hclear (fun _ => hok) hc hb h1 hk (d.erasesTo_be64 a hb)).reaches
        (State.eraseTimedOut_reports _ _ _)
    · have hv : s.valid = true := by simpa [rangeFails] using hrange
      exact (eraseAll_routine.times_out (s := (s.latch .eraseAll a l w).at (.host .eraseAll) 1 []) hclear rfl hv hc hb h1 hk
        (d.erasesTo_ce hb)).reaches (State.eraseTimedOut_reports _ _ _)
    · obtain ⟨hlt, hcap⟩ : a.toNat < l.toNat ∧ l.toNat ≤ s.size.toNat * 256 := by
        simpa [rangeFails, not_or] using hrange
      have hok : sectorIndex a < capacitySectors s.size := by
        simp only [sectorIndex, capacitySectors, sectorBytes]
        omega
      rw [← frameOf_se_sectorAddr]
      exact ((erase_starts hclear hlt hcap).trans
        (erase_call_times_out (s := s.eraseStart a l w) hclear rfl hlt hok hc hb h1 hk)).reaches
        (State.eraseTimedOut_reports _ _ _)
  case sector =>
    intro s d hresets hport hph hc hb hlt hok h1 hk
    rw [← frameOf_se_sectorAddr]
    exact (erase_call_times_out ⟨hport, hresets⟩ hph hlt hok hc hb h1 hk).reaches (State.eraseTimedOut_reports _ _ _)

end Sys2Proof.Machine
end

section
/-! A wait without a limit (R256): an operation ends with a `Done` only, a run takes at least a step per event, and so a
wait that has polled long enough without a `Done` has been running all the time. -/

namespace Sys2Proof.Machine

/-! ### Runs without a `Done` -/

/-- A run, cut in two. -/
theorem run_split {j k : Nat} {s v : State} (h : run (j + k) s = .next v) :
    ∃ u, run j s = .next u ∧ run k u = .next v := by
  induction j generalizing s with
  | zero => exact ⟨s, rfl, by simpa using h⟩
  | succ j ih =>
    rw [Nat.add_right_comm] at h
    obtain ⟨t, ht, hrun⟩ := run_first _ _ _ h
    obtain ⟨u, hu, hv⟩ := ih hrun
    exact ⟨u, (run_succ _ _ _ ht).trans hu, hv⟩

/-- A step adds at most one event (R310), as a list. -/
theorem step_events {s t : State} (h : step s = .next t) : ∃ evs, t.trace = s.trace ++ evs ∧ evs.length ≤ 1 := by
  obtain ⟨evs, htr, hlen, _⟩ := eachStepHasAtMostOneBusEvent s t h
  exact ⟨evs, htr, hlen⟩

/-- A run takes at least one step per event. -/
theorem run_events {n : Nat} {s u : State} (h : run n s = .next u) :
    ∃ evs, u.trace = s.trace ++ evs ∧ evs.length ≤ n := by
  induction n generalizing s with
  | zero =>
    cases h
    exact ⟨[], by simp, le_rfl⟩
  | succ n ih =>
    obtain ⟨t, ht, hrun⟩ := run_first _ _ _ h
    obtain ⟨evs, htr, hlen⟩ := step_events ht
    obtain ⟨evs', htr', hlen'⟩ := ih hrun
    refine ⟨evs ++ evs', by rw [htr', htr, List.append_assoc], ?_⟩
    rw [List.length_append]
    omega

/-- None of the events ends an operation. -/
def NoDone (evs : List Event) : Prop := ∀ ok c k r, Event.done ok c k r ∉ evs

theorem noDone_cons {e : Event} {evs : List Event} :
    NoDone (e :: evs) ↔ (∀ ok c k r, .done ok c k r ≠ e) ∧ NoDone evs := by
  simp [NoDone, not_or, forall_and]

theorem noDone_append {evs evs' : List Event} : NoDone (evs ++ evs') ↔ NoDone evs ∧ NoDone evs' := by
  simp [NoDone, not_or, forall_and]

/-- An operation is running, and no `Reset` will come. -/
structure State.Running (s : State) : Prop where
  resets : s.resets = []
  phase : s.PhaseOk
  ph : s.ph ≠ []

/-- A running operation goes on, or the step ends it with a `Done` (R38f, R247). -/
theorem State.Running.of_step {s t : State} (hs : s.Running) (h : step s = .next t) :
    t.Running ∨ ∃ ok c k r, t.trace = s.trace ++ [.done ok c k r] := by
  obtain ⟨hresets, hphase, hph⟩ := hs
  rw [step_advance s hresets] at h
  have hphase' := advance_phaseOk hphase h
  have hresets' : t.resets = [] := (advance_keeps h (fun hidle => hph hidle.1)).resets.trans hresets
  rcases advance_cases h with ⟨q, _, hq⟩ | ⟨r, rest, hport, htop, hr⟩ | ⟨⟨hidle, _⟩, _⟩
  · rcases portStep_cases hq with ⟨_, _, rfl⟩ | rfl | ⟨_, _, _, _, _, _, _, _, _, rfl⟩
    · exact .inl ⟨hresets', hphase', hph⟩
    · exact .inr ⟨_, _, _, _, rfl⟩
    · exact .inl ⟨hresets', hphase', hph⟩
  · have hl : legalStack (r :: rest) = true := htop ▸ hphase.1
    have hm := routineStep_moves s rest (legalStack_inRange hl)
    rw [hr] at hm
    exact (hm.goes_on_or_ends hl hport).imp (fun hgoes => ⟨hresets', hphase', hgoes.1⟩) And.right
  · exact absurd hidle hph

/-- A run without a `Done` leaves the operation running. -/
theorem State.Running.of_run {n : Nat} {s u : State} {evs : List Event} (hs : s.Running) (h : run n s = .next u)
    (htr : u.trace = s.trace ++ evs) (hd : NoDone evs) : u.Running := by
  induction n generalizing s evs with
  | zero =>
    cases h
    exact hs
  | succ n ih =>
    obtain ⟨t, ht, hrun⟩ := run_first _ _ _ h
    obtain ⟨evs₁, htr₁, _⟩ := step_events ht
    obtain ⟨evs₂, htr₂, _⟩ := run_events hrun
    have hevs : evs = evs₁ ++ evs₂ := by
      rw [htr₂, htr₁, List.append_assoc] at htr
      exact (List.append_cancel_left htr).symm
    obtain ⟨hd₁, hd₂⟩ := noDone_append.1 (hevs ▸ hd)
    refine ih ((hs.of_step ht).resolve_right ?_) hrun htr₂ hd₂
    rintro ⟨ok, c, k, r, hdone⟩
    have hlast : evs₁ = [.done ok c k r] := List.append_cancel_left (htr₁.symm.trans hdone)
    exact hd₁ ok c k r (by simp [hlast])

/-- An operation that has made `n` events or more without a `Done` was running after `n` steps. -/
theorem State.Running.after {n : Nat} {s v : State} {evs : List Event} (hs : s.Running) (h : Leads s v)
    (htr : v.trace = s.trace ++ evs) (hd : NoDone evs) (hn : n ≤ evs.length) :
    ∃ u evs', run n s = .next u ∧ u.Running ∧ u.trace = s.trace ++ evs' ∧ NoDone evs' := by
  obtain ⟨k, hk⟩ := h
  obtain ⟨all, hall, hlen⟩ := run_events hk
  have hevs : all = evs := List.append_cancel_left (hall.symm.trans htr)
  have hsum : n + (k - n) = k := by
    rw [hevs] at hlen
    omega
  obtain ⟨u, hu, hv⟩ := run_split (hsum.symm ▸ hk : run (n + (k - n)) s = .next v)
  obtain ⟨evs₁, htr₁, _⟩ := run_events hu
  obtain ⟨evs₂, htr₂, _⟩ := run_events hv
  have hsplit : evs = evs₁ ++ evs₂ := by
    rw [htr₂, htr₁, List.append_assoc] at htr
    exact (List.append_cancel_left htr).symm
  have hd₁ := (noDone_append.1 (hsplit ▸ hd)).1
  exact ⟨u, evs₁, hu, hs.of_run hu htr₁ hd₁, htr₁, hd₁⟩

/-- Port uses end no operation. -/
theorem noDone_playBus (c : Chip) (k : Nat) (l : List PortReq) : NoDone (playBus c k l) := by
  induction l generalizing c k with
  | nil => exact nofun
  | cons q l ih =>
    cases q with
    | delay ms => exact noDone_cons.2 ⟨nofun, ih c k⟩
    | xfer req => exact noDone_cons.2 ⟨nofun, ih _ _⟩

/-! ### Polls without a limit -/

/-- Without a limit, a busy poll and its delay lead to the next poll, on any chip (R165 S4, S5). -/
theorem poll_unlimited {s : State} {rest : List Record} (hs : s.Clear) (hph : s.ph = ⟨.waitUntilReady, 2⟩ :: rest)
    (hb : busy s.statusRead.sr1 = true) (hl : s.pollLimit = 0#32) :
    Leads s (s.polled.played [.delay s.params.tPoll]) := by
  have hspent : attemptsSpent s.polled.pollLimit s.polled.att = false := by
    simp [attemptsSpent, show s.polled.pollLimit = 0#32 from hl]
  have hagain : Leads (s.polled.at .waitUntilReady 4 rest)
      ((s.polled.played [.delay s.params.tPoll]).at .waitUntilReady 2 rest) := by
    have hdelay := poll_again (s := s.polled.at .waitUntilReady 4 rest) hs rfl hspent
    rwa [State.at_played, State.at_at, State.at_params] at hdelay
  exact ((poll_busy hs hph hb).trans hagain).congr (State.at_self (s := s.polled.played [.delay s.params.tPoll]) hph)

/-- A poll and its delay touch working registers and captures only. -/
theorem State.polled_played_reworked (s : State) (l : List PortReq) : s.Reworked (s.polled.played l) :=
  State.Reworked.trans (u := s.polled) rfl (s.polled.played_reworked l)

/-- What holds after `i` polls of a chip that has `n` busy answers, `s` being the state at the first poll: each poll has
taken two answers and made five events. -/
structure BusyLoop (s : State) (n i : Nat) (u : State) : Prop where
  same : s.Reworked u
  chip : u.chip = .unknown (List.replicate (n - 2 * i) [0xFF#8, 0x01#8])
  events : ∃ evs, u.trace = s.trace ++ evs ∧ evs.length = 5 * i ∧ NoDone evs

/-- One poll more, an answer being left for it. -/
theorem BusyLoop.next {s u : State} {rest : List Record} {n i : Nat} (hs : s.Clear)
    (hph : s.ph = ⟨.waitUntilReady, 2⟩ :: rest) (hl : s.pollLimit = 0#32) (h : BusyLoop s n i u) (hi : 2 * i < n) :
    ∃ v, Leads u v ∧ BusyLoop s n (i + 1) v := by
  obtain ⟨hsame, hchip, evs, htr, hlen, hd⟩ := h
  have hbusy : busy u.statusRead.sr1 = true := by
    have hleft : n - 2 * i = n - 2 * i - 1 + 1 := by omega
    have hsr1 : u.statusRead.sr1 = respByte (u.chip.answer u.free [0x05#8, 0x00#8]) 1 := rfl
    rw [hsr1, hchip, hleft]
    simp [Chip.answer, fitAnswer, respByte, busy, List.replicate_succ, List.range_succ]
  refine ⟨_, poll_unlimited (hsame.clear hs) (hsame.ph.trans hph) hbusy (hsame.pollLimit.trans hl),
    hsame.trans (u.polled_played_reworked _), ?_,
    evs ++ (playBus u.chip u.free (statusBus u.params) ++ [.delay u.params.tPoll]), ?_, ?_, ?_⟩
  · have hused : (u.polled.played [.delay u.params.tPoll]).chip = u.chip.played (statusBus u.params) := rfl
    rw [hused, hchip]
    simp only [statusBus, Chip.played, Chip.after, List.tail_replicate]
    rfl
  · rw [← List.append_assoc, ← List.append_assoc, ← htr]
    rfl
  · rw [List.length_append, hlen]
    rfl
  · exact noDone_append.2 ⟨hd, noDone_append.2 ⟨noDone_playBus _ _ _, noDone_cons.2 ⟨nofun, nofun⟩⟩⟩

/-- The state before the first poll of the operation `wait_until_ready` (R165 S2, R166). -/
def State.waitStart (s : State) (a l : Word) (d : Bytes) : State :=
  State.at { s.latch .waitUntilReady a l d with att := 0#32 } .waitUntilReady 2 [⟨.host .waitUntilReady, 2⟩]

/-- Settles O55: with `n` busy answers the wait makes enough polls for `n` steps (`BusyLoop`), and no `Done`. -/
theorem waitHangsOnABusyChip : Obligations.WaitHangsOnABusyChip := by
  intro n s a l d hs hx hl hc
  have ⟨_, hclear⟩ := hs
  refine ⟨_, exec_accepted (op := .waitUntilReady) hs hx rfl, ?_⟩
  have hstart : Leads ((s.latch .waitUntilReady a l d).at (.host .waitUntilReady) 1 [])
      (s.waitStart a l d) := .trans (.routine hclear rfl rfl) (.routine hclear rfl rfl)
  obtain ⟨v, hv, _, _, evs, htr, hlen, hd⟩ := Leads.iterate (P := BusyLoop (s.waitStart a l d) n) (n := (n + 1) / 2)
    ⟨.refl _, hc, [], (List.append_nil _).symm, rfl, nofun⟩
    (fun i u hi hloop => hloop.next hclear rfl hl (by omega))
  have hrunning : ((s.latch .waitUntilReady a l d).at (.host .waitUntilReady) 1 []).Running :=
    ⟨hclear.2, .of_free_port rfl hclear.1, nofun⟩
  obtain ⟨u, evs', hu, hurun, hutr, hud⟩ := hrunning.after (n := n) (hstart.trans hv) htr hd (by omega)
  refine ⟨u, hu, hurun.ph, ?_⟩
  have htrace : u.trace = s.trace ++ .cmd 0x7#4 a l d :: evs' := hutr.trans (List.append_assoc _ _ _)
  rw [htrace, List.drop_left]
  exact noDone_cons.2 ⟨nofun, hud⟩

end Sys2Proof.Machine
end

section
/-! Identification (R180 to R186): the four bytes in `JEDEC`, the scan of `ID_TABLE`, and the two host operations. -/

namespace Sys2Proof.Machine

/-! ### The fields of `JEDEC` (R47, R126) -/

theorem jedecOf_quad (b0 b1 b2 b3 : Byte) : jedecOf [b0, b1, b2, b3] = b0 ++ b1 ++ b2 ++ b3 := rfl

/-- `J1` of an answer. -/
theorem manufacturer_append (b0 b1 b2 b3 : Byte) : manufacturer (b0 ++ b1 ++ b2 ++ b3) = b1 :=
  (extract_append_high (b0 ++ b1 ++ b2) b3 8).trans
    ((extract_append_high (b0 ++ b1) b2 0).trans ((extract_append_low b0 b1 0 (by omega)).trans (extract_whole b1)))

/-- `{J2, J3}` of an answer. -/
theorem deviceId_append (b0 b1 b2 b3 : Byte) : deviceId (b0 ++ b1 ++ b2 ++ b3) = b2 ++ b3 := by
  have hpairs : b0 ++ b1 ++ b2 ++ b3 = (b0 ++ b1) ++ (b2 ++ b3) := BitVec.append_assoc
  rw [hpairs]
  exact (extract_append_low (b0 ++ b1) (b2 ++ b3) 0 (by omega)).trans (extract_whole _)

/-- The four bytes that `read_jedec` returns are those of the answer (R182). -/
theorem jedecBytes_append (b0 b1 b2 b3 : Byte) : jedecBytes (b0 ++ b1 ++ b2 ++ b3) = [b0, b1, b2, b3] := by
  have h0 : (b0 ++ b1 ++ b2 ++ b3).extractLsb' 24 8 = b0 :=
    (extract_append_high (b0 ++ b1 ++ b2) b3 16).trans
      ((extract_append_high (b0 ++ b1) b2 8).trans ((extract_append_high b0 b1 0).trans (extract_whole b0)))
  have h1 : (b0 ++ b1 ++ b2 ++ b3).extractLsb' 16 8 = b1 := manufacturer_append b0 b1 b2 b3
  have h2 : (b0 ++ b1 ++ b2 ++ b3).extractLsb' 8 8 = b2 :=
    (extract_append_high (b0 ++ b1 ++ b2) b3 0).trans ((extract_append_low _ b2 0 (by omega)).trans (extract_whole b2))
  have h3 : (b0 ++ b1 ++ b2 ++ b3).extractLsb' 0 8 = b3 := (extract_append_low _ b3 0 (by omega)).trans (extract_whole b3)
  rw [jedecBytes, h0, h1, h2, h3]

/-! ### The scan of `ID_TABLE` (R184) -/

/-- The scan finds the first entry with the id. -/
theorem scanTable_first {id : BitVec 16} {t : IdTable} {j k pages : Nat} (hk : t[k]? = some (id, pages))
    (hfirst : ∀ i e, i < k → t[i]? = some e → e.1 ≠ id) : scanTable id j t = some (j + k, pages) := by
  induction t generalizing j k with
  | nil => cases hk
  | cons e rest ih =>
    cases k with
    | zero =>
      cases hk
      exact if_pos rfl
    | succ k =>
      have hskip : scanTable id j (e :: rest) = scanTable id (j + 1) rest := if_neg (hfirst 0 e (by omega) rfl)
      rw [hskip, ih hk (fun i f hi hf => hfirst (i + 1) f (by omega) hf), Nat.add_assoc, Nat.add_comm 1]

/-- The scan finds nothing where no entry has the id. -/
theorem scanTable_none {id : BitVec 16} {t : IdTable} {j : Nat} (h : ∀ e ∈ t, e.1 ≠ id) : scanTable id j t = none := by
  induction t generalizing j with
  | nil => rfl
  | cons e rest ih =>
    obtain ⟨he, hrest⟩ := List.forall_mem_cons.1 h
    exact (if_neg he).trans (ih hrest)

/-! ### The identification frame -/

/-- The state after the identification frame: its answer is captured in `JEDEC` (R118). -/
def State.identified (s : State) : State :=
  { s.played [.xfer (frameOf .jedecid)] with jedec := jedecOf (s.response (frameOf .jedecid)) }

/-- A step of a routine that presents the identification frame, and its performing. -/
theorem identification_sends {s : State} {r : Record} {below rest : List Record} {rt : Routine} {k : Nat} (hs : s.Clear)
    (hph : s.ph = r :: below) (h : routineStep r below s = .next ((s.request (frameOf .jedecid)).at rt k rest)) :
    Leads s (s.identified.at rt k rest) := .send hs hph h hs rfl rfl

/-- `read_jedec` makes one transfer and returns (R182). -/
theorem readJedec_leads {s : State} {rest : List Record} (hs : s.Clear) (hph : s.ph = ⟨.readJedec, 1⟩ :: rest) :
    Leads s (s.identified.ret rest) :=
  (identification_sends hs hph rfl).trans (.routine hs rfl rfl)

/-- The fields of `State.identified`, for an answer known byte by byte. -/
theorem State.identified_eq {s : State} {b0 b1 b2 b3 : Byte}
    (hresp : s.response [0x9F#8, 0x00#8, 0x00#8, 0x00#8] = [b0, b1, b2, b3]) :
    s.identified = { s with
      jedec := b0 ++ b1 ++ b2 ++ b3, chip := s.chip.after [0x9F#8, 0x00#8, 0x00#8, 0x00#8], free := s.free + 1,
      trace := s.trace ++ [.xfer [0x9F#8, 0x00#8, 0x00#8, 0x00#8] [b0, b1, b2, b3]] } := by
  rw [← jedecOf_quad, ← hresp]
  rfl

/-- Identification changes no byte of flash memory. -/
theorem Chip.read_after_jedecid (c : Chip) (x : Nat) : (c.after [0x9F#8, 0x00#8, 0x00#8, 0x00#8]).read x = c.read x :=
  c.read_after rfl x

/-- Settles O43: one identification frame (`identification_sends`), whose answer `JEDEC` gives back. -/
theorem readJedecReturnsFourBytes : Obligations.ReadJedecReturnsFourBytes := by
  intro s a l d hs hx
  have ⟨hph, hclear⟩ := hs
  obtain ⟨b0, b1, b2, b3, hresp⟩ := List.length_eq_four.1 (State.response_length s [0x9F#8, 0x00#8, 0x00#8, 0x00#8])
  refine ⟨_, exec_accepted (op := .readJedec) hs hx rfl, ?_⟩
  have hsent : Leads ((s.latch .readJedec a l d).at (.host .readJedec) 1 [])
      ((s.latch .readJedec a l d).identified.at (.host .readJedec) 2 []) := identification_sends hclear rfl rfl
  refine (hsent.trans (.routine hclear rfl rfl)).reaches ⟨b0, b1, b2, b3, hresp, ?_, s.chip.read_after_jedecid⟩
  rw [State.identified_eq (s := s.latch .readJedec a l d) hresp]
  simp [State.finish, State.at, State.latch, jedecBytes_append, packResult, Cause.code, HostOp.code, hph, hclear.1]

/-! ### `mount` (R184) -/

/-- `mount` makes one transfer and goes on to the manufacturer test, with the answer in `JEDEC`. -/
theorem mount_identifies {s : State} {a l : Word} {d : Bytes} (hs : s.Clear) :
    Leads ((s.latch .mount a l d).at (.host .mount) 1 []) ((s.latch .mount a l d).identified.at (.host .mount) 2 []) :=
  .trans (.routine hs rfl rfl) (readJedec_leads hs rfl)

/-- Another manufacturer ends `mount`, whatever the device id. -/
theorem mount_rejects {s : State} (hs : s.Clear) (hm : manufacturer s.jedec ≠ expectedManufacturer) :
    Leads (s.at (.host .mount) 2 []) (s.clearHandle.raise .wrongManufacturer) :=
  .routine hs rfl (congrArg _ (if_pos hm))

/-- The expected manufacturer takes `mount` to the scan of the table. -/
theorem mount_scans {s : State} (hs : s.Clear) (hm : manufacturer s.jedec = expectedManufacturer) :
    Leads (s.at (.host .mount) 2 []) (s.at (.host .mount) 3 []) :=
  .routine hs rfl (congrArg _ (if_neg (not_not_intro hm)))

/-- The entry that the scan finds becomes the handle. -/
theorem mount_finds {s : State} {k pages : Nat} (hs : s.Clear)
    (h : scanTable (deviceId s.jedec) 0 s.params.idTable = some (k, pages)) :
    Leads (s.at (.host .mount) 3 []) ((s.setHandle k pages).finish []) := by
  refine .routine hs rfl ?_
  simp only [routineStep, mountStep, State.at_jedec, State.at_params, h]
  rfl

/-- A scan that finds no entry fails and clears the handle (R186). -/
theorem mount_finds_nothing {s : State} (hs : s.Clear)
    (h : scanTable (deviceId s.jedec) 0 s.params.idTable = none) :
    Leads (s.at (.host .mount) 3 []) (s.clearHandle.raise .unidentifiedDevice) := by
  have hnone : Leads (s.at (.host .mount) 3 []) (s.at (.host .mount) 4 []) := by
    refine .routine hs rfl ?_
    simp only [routineStep, mountStep, State.at_jedec, State.at_params, h]
    rfl
  exact hnone.trans (.routine hs rfl rfl)

/-- Settles O44: the manufacturer passes, and the scan finds the first matching entry (`scanTable_first`). -/
theorem mountSetsTheHandle : Obligations.MountSetsTheHandle := by
  intro s a l d b0 b2 b3 k pages hs hresp hk hfirst
  have ⟨hph, hclear⟩ := hs
  refine ⟨_, exec_accepted (op := .mount) hs (.inl rfl) rfl, ?_⟩
  have hid := State.identified_eq (s := s.latch .mount a l d) hresp
  have hjedec : (s.latch .mount a l d).identified.jedec = b0 ++ 0xEF#8 ++ b2 ++ b3 := congrArg State.jedec hid
  have hscan : scanTable (deviceId (s.latch .mount a l d).identified.jedec) 0 s.params.idTable = some (k, pages) := by
    rw [hjedec, deviceId_append, scanTable_first hk hfirst, Nat.zero_add]
  have hmount := (mount_identifies hclear).trans ((mount_scans (s := (s.latch .mount a l d).identified) hclear
    (by rw [hjedec, manufacturer_append]; rfl)).trans (mount_finds hclear hscan))
  refine hmount.reaches ⟨?_, s.chip.read_after_jedecid⟩
  rw [hid]
  simp [State.finish, State.setHandle, State.latch, packResult, Cause.code, HostOp.code, hph, hclear.1]

/-- The two ways in which the step after the transfer leads to a failure (R184, R185). -/
theorem mount_fails {s : State} {b0 b1 b2 b3 : Byte} {c : Cause} (hs : s.Clear)
    (hjedec : s.jedec = b0 ++ b1 ++ b2 ++ b3)
    (h : (b1 ≠ 0xEF#8 ∧ c = .wrongManufacturer) ∨
      (b1 = 0xEF#8 ∧ (∀ e, e ∈ s.params.idTable → e.1 ≠ b2 ++ b3) ∧ c = .unidentifiedDevice)) :
    Leads (s.at (.host .mount) 2 []) (s.clearHandle.raise c) := by
  have hm : manufacturer s.jedec = b1 := hjedec ▸ manufacturer_append b0 b1 b2 b3
  have hd : deviceId s.jedec = b2 ++ b3 := hjedec ▸ deviceId_append b0 b1 b2 b3
  rcases h with ⟨hb1, rfl⟩ | ⟨hb1, hno, rfl⟩
  · exact mount_rejects hs (hm ▸ hb1)
  · exact (mount_scans hs (hm.trans hb1)).trans (mount_finds_nothing hs (hd ▸ scanTable_none hno))

/-- Settles O45: both failures clear the handle after the transfer (`mount_fails`). -/
theorem mountFailureClearsTheHandle : Obligations.MountFailureClearsTheHandle := by
  intro s a l d b0 b1 b2 b3 c hs hresp hc
  have ⟨hph, hclear⟩ := hs
  refine ⟨_, exec_accepted (op := .mount) hs (.inl rfl) rfl, ?_⟩
  have hid := State.identified_eq (s := s.latch .mount a l d) hresp
  have hmount := (mount_identifies (a := a) (l := l) (d := d) hclear).trans
    (mount_fails (s := (s.latch .mount a l d).identified) hclear (congrArg State.jedec hid) hc)
  refine hmount.reaches ⟨?_, s.chip.read_after_jedecid⟩
  rw [hid]
  simp [State.raise, State.clearHandle, State.latch, packResult, HostOp.code, hph, hclear.1]

end Sys2Proof.Machine
end

section
/-! `page_program` on any chip that is ready at the first poll (R191, R194), and the page clip of its payload (R192). -/

namespace Sys2Proof.Machine

/-! ### The page clip -/

/-- With its payload inside `WBUF`, a page-program frame is four bytes longer than the payload (R192). -/
theorem State.programFrame_length {s : State} (h : s.off.toNat + s.p.toNat ≤ s.wbuf.length) :
    s.programFrame.length = s.p.toNat + 4 := by
  have hpayload : (payload s.wbuf s.off s.p).length = s.p.toNat := by
    simp only [payload, List.length_take, List.length_drop]
    omega
  have hframe : s.programFrame = [opcPp] ++ addrBytes (wireAddr s.cur) ++ payload s.wbuf s.off s.p := rfl
  simp only [hframe, List.length_append, addrBytes_length, List.length_singleton, hpayload]
  omega

/-- Settles O39: the bounds are those of the minimum (`clip_toNat`), the frame is `State.programFrame_length`. -/
theorem clipStaysInThePage : Obligations.ClipStaysInThePage := by
  intro n cur
  have hclip := clip_toNat n cur
  refine ⟨hclip, fun hn => ?positive, ?bounded, ?inPage, fun s hp hfits => ?frame⟩
  case positive => omega
  case bounded => omega
  case inPage => omega
  case frame => rw [State.programFrame_length hfits, hp]

/-! ### The routine on a ready chip -/

/-- One `read_status` and the part after the wait are the eleven port uses of R191. -/
theorem statusBus_append_burstBus (p : Params) (a : Addr24) (v : Bytes) :
    statusBus p ++ burstBus p a v = programBus p (frameOf (.pp a v)) := by
  simp [burstBus, programBus, opcWren, opcWrdi]

/-- The state after `page_program` with the frame `f` on a chip that is ready at the first poll (R191). -/
def State.programmedReady (s : State) (f : Bytes) : State :=
  { s.played (programBus s.params f) with
    att := 1#32, sr1 := s.statusRead.sr1, sr2 := s.statusRead.sr2, p := clip s.n s.cur,
    fb := freeFrameBuffer (s.free + 3) }

/-- A poll and the burst after it, with their port uses in one list. -/
theorem State.polled_burst {s : State} {f : Bytes} (hf : frameOf (.pp (wireAddr s.cur) s.clipped) = f) :
    (State.polled { s with att := 0#32 }).burst = s.programmedReady f := by
  rw [State.programmedReady, ← hf, ← statusBus_append_burstBus, ← s.played_played]
  rfl

/-- `page_program` whose wait is one poll (R191). -/
theorem pageProgram_ready {s : State} {rest : List Record} {f : Bytes} (hs : s.Clear)
    (hph : s.ph = ⟨.pageProgram, 1⟩ :: rest) (hf : frameOf (.pp (wireAddr s.cur) s.clipped) = f)
    (hb : busy s.statusRead.sr1 = false) : Leads s ((s.programmedReady f).ret rest) := by
  have hwait : Leads s ((State.polled { s with att := 0#32 }).at .pageProgram 2 rest) :=
    .trans (.routine hs hph rfl) (wait_ready hs rfl hb)
  have hburst : Leads s ((State.polled { s with att := 0#32 }).burst.ret rest) :=
    hwait.trans (pageProgram_burst hs rfl)
  rwa [State.polled_burst hf] at hburst

/-- The payload of the host operation `page_program` is the clipped part of its data, from the first byte on (R192,
R194). -/
theorem State.prepared_clipped (s : State) (a l : Word) (d : Bytes) :
    (s.latch .pageProgram a l d).prepared.clipped = d.take (min l.toNat (256 - a.toNat % 256)) := by
  have hclipped : (s.latch .pageProgram a l d).prepared.clipped = d.take (clip l a).toNat := rfl
  rw [hclipped, clip_toNat]

/-- The host operation up to the step that answers: its operands (R194 S1), and the call of the routine. -/
theorem pageProgramOp_ready {s : State} {a l : Word} {d f : Bytes} (hs : s.Clear)
    (hf : f = [opcPp] ++ addrBytes (wireAddr a) ++ d.take (min l.toNat (256 - a.toNat % 256)))
    (hb : busy s.statusRead.sr1 = false) :
    Leads ((s.latch .pageProgram a l d).at (.host .pageProgram) 1 [])
      (((s.latch .pageProgram a l d).prepared.programmedReady f).at (.host .pageProgram) 3 []) := by
  have hcalled : Leads ((s.latch .pageProgram a l d).at (.host .pageProgram) 1 [])
      ((s.latch .pageProgram a l d).prepared.at .pageProgram 1 [⟨.host .pageProgram, 3⟩]) :=
    .trans (.routine hs rfl rfl) (.routine hs rfl rfl)
  have hframe : frameOf (.pp (wireAddr a) (s.latch .pageProgram a l d).prepared.clipped) = f := by
    rw [State.prepared_clipped, hf]
    rfl
  exact hcalled.trans (pageProgram_ready hs rfl hframe hb)

/-- Settles O50: the run of `pageProgramOp_ready`, and the step that answers the payload count. -/
theorem pageProgramMakesItsElevenEvents : Obligations.PageProgramMakesItsElevenEvents := by
  rintro s a l d cnt f hs hx hd rfl hf hready
  have ⟨hph, hclear⟩ := hs
  refine ⟨_, exec_accepted (op := .pageProgram) hs hx (by simp [wfCmdData, hd]), ?_⟩
  have hrun := pageProgramOp_ready (d := d) hclear hf hready
  refine (hrun.trans (.routine hclear rfl rfl)).reaches ?_
  simp [State.finish, State.at, State.programmedReady, State.played, State.prepared, State.latch, clip_eq, packResult,
    Cause.code, HostOp.code, hph, hclear.1]

end Sys2Proof.Machine
end

section
/-! Failed range checks (R200, R218, R228, R242): each operation's own check raises `ParamRange` before anything goes to a
port. -/

namespace Sys2Proof.Machine

/-! ### The checks that fail -/

/-- The check of `read` (R205 S1). -/
theorem read_check_fails {s : State} (rest : List Record) (h : ¬ rangeOk s.valid s.size s.addr s.len) :
    routineStep ⟨.host .read, 1⟩ rest s = .next (s.raise .paramRange) := by
  simp only [routineStep, readStep, if_neg (mt (s.paramsValid_iff _ _).1 h)]

/-- The check of `write` (R201 S1). -/
theorem write_check_fails {s : State} (rest : List Record) (h : ¬ rangeOk s.valid s.size s.addr s.len) :
    routineStep ⟨.host .write, 1⟩ rest s = .next (s.raise .paramRange) := by
  simp only [routineStep, writeStep, if_neg (mt (s.paramsValid_iff _ _).1 h)]

/-- The check of `erase` (R227 S1). -/
theorem erase_check_fails {s : State} (rest : List Record)
    (h : s.len.toNat ≤ s.addr.toNat ∨ capacityBytes s.size < s.len.toNat) :
    routineStep ⟨.host .erase, 1⟩ rest s = .next (s.raise .paramRange) := by
  have hbad : eraseRangeBad s = true := by simpa [eraseRangeBad] using h
  simp only [routineStep, eraseStep, hbad, if_true]

/-- The check of the routine `sector_erase` (R216 S1). -/
theorem sectorErase_check_fails {s : State} (rest : List Record) (h : capacitySectors s.size ≤ sectorIndex s.cur) :
    routineStep ⟨.sectorErase, 1⟩ rest s = .next (s.raise .paramRange) := by
  simp only [routineStep, sectorEraseStep, if_pos h]

/-- The check of the routine `block_erase_64k` (R219 S1). -/
theorem blockErase_check_fails {s : State} (rest : List Record) (h : capacityBlocks s.size ≤ blockIndex s.cur) :
    routineStep ⟨.blockErase64k, 1⟩ rest s = .next (s.raise .paramRange) := by
  simp only [routineStep, blockEraseStep, if_pos h]

/-- The check of `erase_all` (R229 S1). -/
theorem eraseAll_check_fails {s : State} (rest : List Record) (h : s.valid = false) :
    routineStep ⟨.host .eraseAll, 1⟩ rest s = .next (s.raise .paramRange) := by
  simp only [routineStep, eraseAllStep, if_pos h]

/-! ### From acceptance to the failed check -/

/-- The state at the `Done` of an operation whose own check has failed, `c` standing in `CUR`. -/
def State.rangeFailed (s : State) (op : HostOp) (a l : Word) (d : Bytes) (c : Word) : State :=
  State.raise { s.latch op a l d with cur := c } .paramRange

/-- An operation that makes its check in its first step leaves `CUR` alone. -/
theorem own_check_leads {s : State} {op : HostOp} {a l : Word} {d : Bytes} (hs : s.Clear)
    (hcheck : routineStep ⟨.host op, 1⟩ [] ((s.latch op a l d).at (.host op) 1 []) =
      .next (State.raise ((s.latch op a l d).at (.host op) 1 []) .paramRange)) :
    Leads ((s.latch op a l d).at (.host op) 1 []) (s.rangeFailed op a l d s.cur) := .routine hs rfl hcheck

/-- A single erase moves its address to `CUR` and calls the routine that makes the check (R217, R220). -/
theorem EraseOp.calls {op : HostOp} {rt : Routine} (hop : EraseOp op rt) {s : State} {a l : Word} {d : Bytes}
    (hs : s.Clear) : Leads ((s.latch op a l d).at (.host op) 1 [])
      (State.at { s.latch op a l d with cur := a } rt 1 [⟨.host op, 3⟩]) :=
  .trans (.routine hs rfl (hop.start _)) (.routine hs rfl (hop.call _))

/-- Every operation whose own check fails ends at it. -/
theorem rangeFails_leads {s : State} {op : HostOp} {a l : Word} {d : Bytes} (hs : s.Clear) (h : rangeFails s op a l) :
    ∃ c, Leads ((s.latch op a l d).at (.host op) 1 []) (s.rangeFailed op a l d c) := by
  rcases h with ⟨rfl | rfl, hrange⟩ | ⟨rfl, hrange⟩ | ⟨rfl, hsector⟩ | ⟨rfl, hblock⟩ | ⟨rfl, hunset⟩
  case inl.inl => exact ⟨s.cur, own_check_leads hs (read_check_fails _ hrange)⟩
  case inl.inr => exact ⟨s.cur, own_check_leads hs (write_check_fails _ hrange)⟩
  case inr.inl => exact ⟨s.cur, own_check_leads hs (erase_check_fails _ hrange)⟩
  case inr.inr.inl =>
    exact ⟨a, (sectorErase_op.calls hs).trans (.routine hs rfl (sectorErase_check_fails _ hsector))⟩
  case inr.inr.inr.inl =>
    exact ⟨a, (blockErase_op.calls hs).trans (.routine hs rfl (blockErase_check_fails _ hblock))⟩
  case inr.inr.inr.inr => exact ⟨s.cur, own_check_leads hs (eraseAll_check_fails _ hunset)⟩

/-- What such an operation leaves: its operands, its result and its two events. -/
theorem State.rangeFailed_eq {s : State} (hs : s.Idle) (op : HostOp) (a l : Word) (d : Bytes) (c : Word) :
    s.rangeFailed op a l d c =
      { s with addr := a, len := l, cur := c, cnt := 0#32, wbuf := d, rbuf := [], opr := freeOpr s.free,
               free := s.free + 1, result := 0x2#4, count := 0#32,
               trace := s.trace ++ [.cmd op.code a l d, .done false .paramRange 0#32 []] } := by
  obtain ⟨hph, hport⟩ := hs
  simp [State.rangeFailed, State.raise, State.latch, packResult, Cause.code, hph, hport]

/-- Settles O47: acceptance, the steps up to the failed check (`rangeFails_leads`), and the state that it leaves. -/
theorem failedCheckSendsNothing : Obligations.FailedCheckSendsNothing := by
  intro s op a l d hs hx hd hfails
  have ⟨hph, hclear⟩ := hs
  obtain ⟨c, hrun⟩ := rangeFails_leads (d := d) hclear hfails
  exact ⟨_, exec_accepted hs hx hd, hrun.reaches (State.rangeFailed_eq ⟨hph, hclear.1⟩ op a l d c)⟩

end Sys2Proof.Machine
end

section
/-! The erases on any chip that is ready at the first poll (R216, R219, R229), and `block_erase_32k` (R224). -/

namespace Sys2Proof.Machine

/-! ### The part that the erases share, with one poll -/

/-- The state after an erase with the frame `f` on a chip that is ready at the first poll: the two captures are those of
the `read_status` after the frame (R216). -/
def State.erasedReady (s : State) (f : Bytes) : State :=
  { s.played (eraseBus s.params f) with
    att := 1#32, sr1 := (s.played (eraseOpening s.params f)).statusRead.sr1,
    sr2 := (s.played (eraseOpening s.params f)).statusRead.sr2 }

/-- The part before the wait, one `read_status` and the write-disable are the eleven port uses of R216. -/
theorem eraseOpening_append_statusBus (p : Params) (f : Bytes) :
    (eraseOpening p f ++ statusBus p) ++ gateBus p opcWrdi = eraseBus p f := rfl

/-- The part before the wait, a poll and the write-disable, with their port uses in one list. -/
theorem State.polled_eraseOpening (s : State) (f : Bytes) :
    (State.polled { s.played (eraseOpening s.params f) with att := 0#32 }).played (gateBus s.params opcWrdi) =
      s.erasedReady f := by
  rw [State.erasedReady, ← eraseOpening_append_statusBus, ← s.played_played, ← s.played_played]
  rfl

/-- The steps 4 and 5 of an erase whose wait is one poll: that poll and the write-disable. -/
theorem EraseRoutine.closes {rt : Routine} {ok : State → Prop} {frame : Word → Bytes} (hr : EraseRoutine rt ok frame)
    {s : State} {rest : List Record} (hs : s.Clear) (hph : s.ph = ⟨rt, 4⟩ :: rest) (hb : busy s.statusRead.sr1 = false) :
    Leads s (((State.polled { s with att := 0#32 }).played (gateBus s.params opcWrdi)).at rt 6 rest) := by
  have hwaited : Leads s ((State.polled { s with att := 0#32 }).at rt 5 rest) :=
    .trans (.routine hs hph (hr.wait _ _)) (wait_ready hs rfl hb)
  exact hwaited.trans (call_gate_leads (g := .writeDisable) hs rfl (hr.disable _ _))

/-- The steps 1 to 5 of an erase whose wait is one poll (R216, R219, R229). -/
theorem EraseRoutine.ready {rt : Routine} {ok : State → Prop} {frame : Word → Bytes} (hr : EraseRoutine rt ok frame)
    {s : State} {rest : List Record} (hs : s.Clear) (hph : s.ph = ⟨rt, 1⟩ :: rest) (hok : ok s)
    (hb : busy (s.played (eraseOpening s.params (frame s.cur))).statusRead.sr1 = false) :
    Leads s ((s.erasedReady (frame s.cur)).at rt 6 rest) := by
  rw [← s.polled_eraseOpening]
  exact (hr.opens hs hph hok).trans (hr.closes hs rfl hb)

/-! ### The host operations -/

/-- The state at the `Done` of such an erase, `c` standing in `CUR`. -/
def State.eraseReadyDone (s : State) (op : HostOp) (a l : Word) (w : Bytes) (c : Word) (f : Bytes) : State :=
  (State.erasedReady { s.latch op a l w with cur := c } f).finish []

/-- A host operation that erases one unit, its check passed (R217, R220). -/
theorem EraseOp.ready {op : HostOp} {rt : Routine} {ok : State → Prop} {frame : Word → Bytes} (hop : EraseOp op rt)
    (hr : EraseRoutine rt ok frame) {s : State} {a l : Word} {w : Bytes} (hs : s.Clear)
    (hok : ∀ ph, ok { s.latch op a l w with cur := a, ph := ph })
    (hb : busy (s.played (eraseOpening s.params (frame a))).statusRead.sr1 = false) :
    Leads ((s.latch op a l w).at (.host op) 1 []) (s.eraseReadyDone op a l w a (frame a)) := by
  have herased := (hop.calls hs).trans (hr.ready hs rfl (hok _) hb)
  exact herased.trans (.trans (.routine hs rfl (hop.ret _ _)) (.routine hs rfl (hop.finish _)))

/-- `erase_all` on a mounted chip (R229). -/
theorem eraseAll_ready {s : State} {a l : Word} {w : Bytes} (hs : s.Clear) (hv : s.valid = true)
    (hb : busy (s.played (eraseOpening s.params (frameOf .ce))).statusRead.sr1 = false) :
    Leads ((s.latch .eraseAll a l w).at (.host .eraseAll) 1 [])
      (s.eraseReadyDone .eraseAll a l w s.cur (frameOf .ce)) := by
  have herased := eraseAll_routine.ready (s := (s.latch .eraseAll a l w).at (.host .eraseAll) 1 []) hs rfl hv hb
  exact herased.trans (.routine hs rfl rfl)

/-- The whole state at that `Done`. -/
theorem State.eraseReadyDone_eq {s : State} (hs : s.Idle) (op : HostOp) (a l : Word) (w : Bytes) (c : Word) (f : Bytes) :
    s.eraseReadyDone op a l w c f =
      { s with addr := a, len := l, cur := c, att := 1#32, cnt := 0#32, wbuf := w, rbuf := [],
               sr1 := (s.eraseReadyDone op a l w c f).sr1, sr2 := (s.eraseReadyDone op a l w c f).sr2,
               opr := (s.eraseReadyDone op a l w c f).opr, free := (s.eraseReadyDone op a l w c f).free,
               result := 0x1#4, count := 0#32, chip := s.chip.played (eraseBus s.params f),
               trace := s.trace ++ [.cmd op.code a l w] ++ playBus s.chip s.free (eraseBus s.params f)
                 ++ [.done true .none 0#32 []] } := by
  obtain ⟨hph, hport⟩ := hs
  simp [State.eraseReadyDone, State.erasedReady, State.finish, State.played, State.latch, packResult, Cause.code, hph, hport]

/-- Settles O51: each erase, its own check passed, makes its run (`EraseOp.ready`, `eraseAll_ready`). -/
theorem eraseOperationsMakeTheirElevenEvents : Obligations.EraseOperationsMakeTheirElevenEvents := by
  intro s op a l w f hs hx hrange hop hready
  have ⟨hph, hclear⟩ := hs
  have hidle : s.Idle := ⟨hph, hclear.1⟩
  rcases hop with ⟨rfl, rfl⟩ | ⟨rfl, rfl⟩ | ⟨rfl, rfl⟩ <;>
    refine ⟨_, exec_accepted hs hx rfl, ?_⟩
  case inl =>
    have hok : sectorIndex a < capacitySectors s.size := by
      simpa [rangeFails, sectorIndex, capacitySectors, sectorBytes] using hrange
    rw [← frameOf_se_sectorAddr] at hready ⊢
    exact (sectorErase_op.ready sectorErase_routine hclear (fun _ => hok) hready).reaches
      (State.eraseReadyDone_eq hidle _ _ _ _ _ _)
  case inr.inl =>
    have hok : blockIndex a < capacityBlocks s.size := by
      simpa [rangeFails, blockIndex, capacityBlocks, blockBytes] using hrange
    rw [← frameOf_be64_blockAddr] at hready ⊢
    exact (blockErase_op.ready blockErase_routine hclear (fun _ => hok) hready).reaches
      (State.eraseReadyDone_eq hidle _ _ _ _ _ _)
  case inr.inr =>
    have hv : s.valid = true := by simpa [rangeFails] using hrange
    exact (eraseAll_ready hclear hv hready).reaches (State.eraseReadyDone_eq hidle _ _ _ _ _ _)

/-! ### `block_erase_32k` (R224) -/

/-- The only step of `block_erase_32k` raises `Unimplemented`. -/
theorem blockErase32k_raises {s : State} (hs : s.Clear) (hph : s.ph = [⟨.host .blockErase32k, 1⟩]) :
    Leads s (s.raise .unimplemented) := .routine hs hph rfl

/-- Settles O48: acceptance, and then the one step of `blockErase32k_raises`. -/
theorem blockErase32kIsUnimplemented : Obligations.BlockErase32kIsUnimplemented := by
  intro s a l d hs hx
  have ⟨hph, hclear⟩ := hs
  refine ⟨_, exec_accepted (op := .blockErase32k) hs hx rfl, ?_⟩
  have hrun : Leads ((s.latch .blockErase32k a l d).at (.host .blockErase32k) 1 []) _ := blockErase32k_raises hclear rfl
  refine hrun.reaches ?_
  simp [State.raise, State.at, State.latch, packResult, Cause.code, HostOp.code, hph, hclear.1]

end Sys2Proof.Machine
end

section
/-! The handle is written by `mount` and by `Reset` alone (R285). -/

namespace Sys2Proof.Machine

/-- Without a record of `mount` on top no advance writes the handle: neither the return of a request, nor a step of another
routine, nor a move of the host. -/
theorem advance_sameHandle {s t : State} (h : advance s = .next t)
    (hmount : ∀ k rest, s.ph ≠ ⟨.host .mount, k⟩ :: rest) : s.SameHandle t := by
  rcases advance_cases h with ⟨q, _, hq⟩ | ⟨⟨routine, k⟩, rest, _, hph, hr⟩ | ⟨_, hh⟩
  · exact (portStep_keeps hq).2
  · have hother : routine ≠ .host .mount := by
      rintro rfl
      exact hmount k rest hph
    exact (routineStep_inside hother s rest t hr).handle
  · exact (hostStep_sameHandle hh).2

/-- Settles O17: with no `Reset` due a step is an advance, and `advance_sameHandle` says what that leaves. -/
theorem onlyMountAndResetChangeTheHandle : Obligations.OnlyMountAndResetChangeTheHandle := by
  intro s t h hreset hmount
  rcases step_cases s t h with ⟨later, hz, _⟩ | ⟨later, _, ha⟩
  · exact absurd (by rw [hz]; rfl) hreset
  · obtain ⟨hvalid, hmodel, hsize⟩ := advance_sameHandle (s := { s with resets := later }) ha hmount
    exact ⟨hvalid, hmodel, hsize⟩

end Sys2Proof.Machine
end
